-- ==== Sys2Proof/Word.lean ====
section
/-! DEFINITION. The types of numbers and bit fields (spec/00_scope.md R10). Widths that an implementation parameter or the
configuration fixes (ADDR_W, CMD_W, CNT_W, N, the index widths) are naturals with the bound stated as an invariant, in the
spec's own notation: "bitwise on naturals", "logical shifts of an unbounded natural number". So a command word is a `Nat`
below `2 ^ CMD_W` (R52) and a branch address a `Nat` below `2 ^ ADDR_W` (R6, R58). Widths the spec fixes are bit vectors. -/

namespace Sys2Proof

/-- A saturating counter, "stored as its binary value (`c[1:0]`)" (R24). -/
abbrev Counter := BitVec 2

/-- A width field of the command word (R56) and of CFGR (R22): 6 bits, unsigned. -/
abbrev Width := BitVec 6

end Sys2Proof
end

