-- ==== Sys2Proof/Config.lean ====
section
/-! DEFINITION. The implementation parameters (spec/00_scope.md section 2, R6 to R9): "fixed per instance of the hardware
and ... arguments of the model". The spec leaves all four OPEN (D6, D7, D8, D10), so the model fixes none of them: an
instance's parameters stand in State (`State.params`), no step writes them, and a statement about every state is a statement
about every choice of them (log 1). -/

namespace Sys2Proof

/-- MALFORMED_POLICY (R9): what the block does with an outcome that is neither T nor NT. -/
inductive MalformedPolicy where
  /-- A no-op update that still counts the prediction (the default). -/
  | noOp
  /-- The sticky fault MALFORMED_OUTCOME. -/
  | fault
deriving DecidableEq, Repr

/-- The implementation parameters of one instance. -/
structure Params where
  /-- ADDR_W (R6): the width of the branch address. -/
  addrW : Nat
  /-- MAX_W (R7): the largest table index width CFG accepts. -/
  maxW : Nat
  /-- CNT_W (R8): the width of PM and MP. -/
  cntW : Nat
  /-- MALFORMED_POLICY (R9). -/
  malformedPolicy : MalformedPolicy
deriving DecidableEq, Repr

/-- The spec's default values (R6 to R9): ADDR_W 32, MAX_W 32, CNT_W 64, NoOp. -/
def Params.default : Params :=
  { addrW := 32, maxW := 32, cntW := 64, malformedPolicy := .noOp }

/-- The bounds the spec sets: ADDR_W ≥ 2 (R6) and MAX_W ≤ 63 (R7). -/
def Params.wf (p : Params) : Bool :=
  decide (2 ≤ p.addrW) && decide (p.maxW ≤ 63)

/-- CMD_W = 8 + max(ADDR_W, 32) (R52). -/
def Params.cmdW (p : Params) : Nat := 8 + max p.addrW 32

end Sys2Proof
end

