-- ==== Sys2Proof/Syntax.lean ====
section
/-! DEFINITION. The six commands as abstract records (spec/30_encoding.md R51) and the names their operands use: the
outcome (R13, R55), the prediction (R13), the variant (R23) and the variant code of a CFG word (R57). -/

namespace Sys2Proof

/-- The recorded outcome of a branch (R13). -/
inductive BranchOutcome where
  /-- T: taken. -/
  | t
  /-- NT: not taken. -/
  | nt
  /-- X: a malformed record, "any outcome token other than the two recognised symbols". -/
  | x
deriving DecidableEq, Repr

/-- A prediction "is `T` or `NT`" (R13). -/
inductive Prediction where
  | t
  | nt
deriving DecidableEq, Repr

/-- The configured variant (R23). -/
inductive Variant where
  | bimodal
  | gshare
  | hybrid
deriving DecidableEq, Repr

/-- The variant a CFG word asks for (R57); the code 0b11 names none. -/
inductive VariantCode where
  | bimodal
  | gshare
  | hybrid
  | unrecognised
deriving DecidableEq, Repr

/-- The commands of the block, one constructor per row of spec/opcode_table.json (R51). -/
inductive Instr where
  /-- CFG(variant, K, M1, N, M2): configure and construct (R74). -/
  | cfg (v : VariantCode) (k m1 n m2 : Width)
  /-- BPU(addr, o): bimodal predict and update (R84). -/
  | bpu (a : Nat) (o : BranchOutcome)
  /-- GPU(addr, o): gshare predict and update (R95). -/
  | gpu (a : Nat) (o : BranchOutcome)
  /-- HPU(addr, o): hybrid predict and update (R107). -/
  | hpu (a : Nat) (o : BranchOutcome)
  /-- SNAP: read counters and tables (R115). -/
  | snap
  /-- RATE: misprediction rate (R117). -/
  | rate
deriving DecidableEq, Repr

end Sys2Proof
end

