-- ==== Sys2Proof/WellFormed.lean ====
section
/-! DEFINITION. Which abstract commands the command word can carry (spec/30_encoding.md R56, R58). The four widths of CFG
are 6-bit by type; the branch address of a predict command must fit ADDR_W bits. -/

namespace Sys2Proof

/-- The command is one that some word of `CMD_W` bits stands for: its address, where it has one, is "an unsigned
ADDR_W-bit number" (R58). -/
def Instr.wellFormed (p : Params) : Instr → Bool
  | .cfg _ _ _ _ _ => true
  | .bpu a _ => decide (a < 2 ^ p.addrW)
  | .gpu a _ => decide (a < 2 ^ p.addrW)
  | .hpu a _ => decide (a < 2 ^ p.addrW)
  | .snap => true
  | .rate => true

end Sys2Proof
end

