-- ==== Sys2Proof/Decode.lean ====
section
/-! DEFINITION. The decoder (spec/30_encoding.md R52 to R60, R62 to R64), total on every number, and after it the encoder,
written from the same field tables. Decoding reads the parameters of the instance and no other state (R62, R64). -/

namespace Sys2Proof

/-- Why a command word is illegal (R60). -/
inductive IllegalReason where
  /-- `op` is 0x0 or 0x7 to 0xF (R54). -/
  | reservedOpcode
  /-- A bit that R53, R56, R58 or R59 reserves is 1. -/
  | reservedBit
deriving DecidableEq, Repr

/-- What the decoder makes of a number. -/
inductive Decoded where
  /-- A legal command word. -/
  | command (i : Instr)
  /-- ILLEGAL (R62). -/
  | illegal (why : IllegalReason)
  /-- Not a command word at all: the number has more than CMD_W bits (R52; log 5). -/
  | notAWord
deriving DecidableEq, Repr

/-- `v[hi:lo]` (R10): the field of bits `hi` down to `lo`, as an unsigned number. -/
def bits (v hi lo : Nat) : Nat := (v >>> lo) % 2 ^ (hi + 1 - lo)

/-- `outcome_of` (R55, R62). -/
def outcomeOf (sub : Nat) : BranchOutcome :=
  if sub = 0 then .nt else if sub = 1 then .t else .x

/-- `variant_of` (R57, R62). -/
def variantOf (sub : Nat) : VariantCode :=
  if sub = 0 then .bimodal else if sub = 1 then .gshare else if sub = 2 then .hybrid else .unrecognised

/-- The payload of CFG (R56): four 6-bit widths, the bits between and above them reserved. -/
def decodeCfg (p : Params) (w : Nat) : Decoded :=
  if bits w 15 14 ≠ 0 ∨ bits w 23 22 ≠ 0 ∨ bits w 31 30 ≠ 0 ∨ bits w (p.cmdW - 1) 38 ≠ 0 then
    .illegal .reservedBit
  else
    .command (.cfg (variantOf (bits w 5 4)) (BitVec.ofNat 6 (bits w 13 8)) (BitVec.ofNat 6 (bits w 21 16))
      (BitVec.ofNat 6 (bits w 29 24)) (BitVec.ofNat 6 (bits w 37 32)))

/-- The payload of BPU, GPU and HPU (R58): the address, and where ADDR_W < 32 the reserved bits above it. -/
def decodePredict (mk : Nat → BranchOutcome → Instr) (p : Params) (w : Nat) : Decoded :=
  if p.addrW < 32 ∧ bits w 39 (8 + p.addrW) ≠ 0 then
    .illegal .reservedBit
  else
    .command (mk (bits w (8 + p.addrW - 1) 8) (outcomeOf (bits w 5 4)))

/-- SNAP and RATE (R59): every bit above `op` is reserved. -/
def decodeNoOperand (i : Instr) (p : Params) (w : Nat) : Decoded :=
  if bits w (p.cmdW - 1) 4 ≠ 0 then .illegal .reservedBit else .command i

/-- `decode(w)` (R62): the reserved bits [7:6] first, then by opcode (R54). -/
def decode (p : Params) (w : Nat) : Decoded :=
  if 2 ^ p.cmdW ≤ w then .notAWord
  else if bits w 7 6 ≠ 0 then .illegal .reservedBit
  else match bits w 3 0 with
    | 1 => decodeCfg p w
    | 2 => decodePredict .bpu p w
    | 3 => decodePredict .gpu p w
    | 4 => decodePredict .hpu p w
    | 5 => decodeNoOperand .snap p w
    | 6 => decodeNoOperand .rate p w
    | _ => .illegal .reservedOpcode

/-- The opcode of a command (R54). -/
def Instr.opcode : Instr → Nat
  | .cfg _ _ _ _ _ => 1
  | .bpu _ _ => 2
  | .gpu _ _ => 3
  | .hpu _ _ => 4
  | .snap => 5
  | .rate => 6

/-- The code a host sends for an outcome (R55); for X it is 0b10, as R55 and R65 give it (0b11 "means the same"). -/
def BranchOutcome.code : BranchOutcome → Nat
  | .nt => 0
  | .t => 1
  | .x => 2

/-- The variant code (R57). -/
def VariantCode.code : VariantCode → Nat
  | .bimodal => 0
  | .gshare => 1
  | .hybrid => 2
  | .unrecognised => 3

/-- A predict word (R53, R58): opcode, outcome code at bit 4, address at bit 8. -/
def encodePredict (op : Nat) (a : Nat) (o : BranchOutcome) : Nat :=
  op + o.code * 2 ^ 4 + a * 2 ^ 8

/-- The command word of a command (R53 to R59), reserved bits 0. -/
def encode : Instr → Nat
  | .cfg v k m1 n m2 =>
    1 + v.code * 2 ^ 4 + k.toNat * 2 ^ 8 + m1.toNat * 2 ^ 16 + n.toNat * 2 ^ 24 + m2.toNat * 2 ^ 32
  | .bpu a o => encodePredict 2 a o
  | .gpu a o => encodePredict 3 a o
  | .hpu a o => encodePredict 4 a o
  | .snap => 5
  | .rate => 6

/-- The command the decoder reads from a row's word in the numbering of spec/opcode_table.json, which is the spec's own
(R10: bit 0 least significant), at the default parameters, since the table's words are those of ADDR_W = 32. Bits from
`nbits` up are 0. -/
def decodeTableWord (nbits w : Nat) : Option Instr :=
  match decode .default (w % 2 ^ nbits) with
  | .command i => some i
  | .illegal _ => none
  | .notAWord => none

end Sys2Proof
end

