-- ==== Sys2Proof/Machine/State.lean ====
section
/-! DEFINITION. The state of the block (spec/10_state.md R20 to R33), its responses (spec/30_encoding.md R61), what the host
sends it, the state after hardware reset (spec/70_reset_and_hazards.md R150), and the two reasons for which the model stops.
A sticky fault of the spec (R131) is a next state, never a stop. -/

namespace Sys2Proof.Machine

/-- PHASE (R31). -/
inductive Phase where
  | unconfigured
  | running
  | failed
deriving DecidableEq, Repr

/-- The error codes of R130, which FAULT holds (R32) and responses report (R61). -/
inductive FaultCode where
  /-- 0 NONE: no sticky fault has been taken. -/
  | noFault
  /-- 1 ILLEGAL_COMMAND. -/
  | illegalCommand
  /-- 2 NOT_CONFIGURED. -/
  | notConfigured
  /-- 3 ALREADY_CONFIGURED. -/
  | alreadyConfigured
  /-- 4 CFG_BAD_VARIANT. -/
  | cfgBadVariant
  /-- 5 CFG_WIDTH_TOO_LARGE. -/
  | cfgWidthTooLarge
  /-- 6 CFG_HISTORY_TOO_LONG. -/
  | cfgHistoryTooLong
  /-- 7 VARIANT_MISMATCH. -/
  | variantMismatch
  /-- 8 COUNTER_OVERFLOW. -/
  | counterOverflow
  /-- 9 MALFORMED_OUTCOME. -/
  | malformedOutcome
  /-- 10 DIVISION_UNDEFINED. -/
  | divisionUndefined
deriving DecidableEq, Repr

/-- CFGR (R22): the accepted configuration. -/
structure Cfgr where
  variant : Variant
  k : Width
  m1 : Width
  n : Width
  m2 : Width
deriving DecidableEq, Repr

/-- A counter table (R25, R26, R27), held sparse: every entry holds `fill`, the value CFG wrote to all of them (R71), but
those listed in `cells`, by rising index (log 6). -/
structure Table where
  fill : Counter
  cells : List (Nat × Counter)
deriving DecidableEq, Repr

/-- The names under which SNAP reports tables (R115). -/
inductive TableName where
  | bimodal
  | gshare
  | chooser
deriving DecidableEq, Repr

/-- One table of a snapshot: its name, its index width W and a copy of its 2^W entries (R115, R116; log 7). -/
structure TableView where
  name : TableName
  width : Nat
  table : Table
deriving DecidableEq, Repr

/-- The record of a SNAPSHOT response (R115). -/
structure SnapshotRecord where
  predictionsMade : Nat
  mispredictions : Nat
  tables : List TableView
deriving DecidableEq, Repr

/-- A response (R61). -/
inductive Response where
  /-- OK: CFG accepted. -/
  | ok
  /-- PRED(p): a predict command completed. -/
  | pred (p : Prediction)
  /-- SNAPSHOT(rec). -/
  | snapshot (record : SnapshotRecord)
  /-- RATE(num, den). -/
  | rate (num den : Nat)
  /-- ERROR(code): a non-mutating error of SNAP or RATE (R132). -/
  | error (code : FaultCode)
  /-- FAULT(code): the command took the sticky fault (R131). -/
  | fault (code : FaultCode)
  /-- FAILED(code): the block was already FAILED (R133). -/
  | failed (code : FaultCode)
deriving DecidableEq, Repr

/-- What the host can do to the block (R145): send a command word, or the hardware reset. -/
inductive HostInput where
  | command (w : Nat)
  | reset
deriving DecidableEq, Repr

/-- The whole state. `phase` to `mp` are the state of R20, absent pieces `none` (R150, R151; log 2). `params` are the
parameters of the instance, which nothing writes (log 1). `pending` and `responses` are the transaction interface (R12):
what the host has sent and not yet seen taken, oldest first (log 4), and what it has been answered, oldest first (log 3). -/
structure State where
  params : Params
  phase : Phase
  fault : FaultCode
  cfgr : Option Cfgr
  bt : Option Table
  gt : Option Table
  ct : Option Table
  ghr : Option Nat
  pm : Option Nat
  mp : Option Nat
  pending : List HostInput
  responses : List Response
deriving DecidableEq, Repr

/-- Why the model stops. The block itself never stops (R61: "Every command returns exactly one response"): no state that
meets `State.Inv` reaches either of these. -/
inductive Fault where
  /-- Raised by BPU, GPU, HPU, SNAP and RATE in PHASE = RUNNING when a piece of state is absent that R23 and R31 give the
  configured variant there. Safe: such a state is no state of the block. -/
  | absentState
  /-- Raised by the step when the next number in `pending` has more than CMD_W bits, so that it is no command word (R52).
  Safe: no host can send it. -/
  | notACommandWord
deriving DecidableEq, Repr

/-- Why the model gives an instruction no meaning. -/
inductive Refusal where
  /-- Raised by an arm of `exec` for an instruction not modelled yet; no arm raises it. Safe. -/
  | notModelled (mnemonic : String)
deriving DecidableEq, Repr

/-- What a step, or the meaning of a command, answers. -/
abbrev Result := Host.Outcome State Fault Refusal

/-- The block right after hardware reset (R150, R151): UNCONFIGURED, no fault, every other piece of state absent; the
default parameters (R6 to R9); nothing sent and nothing answered yet. -/
def State.reset : State :=
  { params := .default, phase := .unconfigured, fault := .noFault, cfgr := none, bt := none, gt := none, ct := none,
    ghr := none, pm := none, mp := none, pending := [], responses := [] }

end Sys2Proof.Machine
end

