-- ==== Sys2Proof/Machine/Ops.lean ====
section
/-! DEFINITION. The named operations over tables and registers: access to a table (spec/20_memory.md R41), which tables a
variant has (spec/10_state.md R23), responding (spec/30_encoding.md R61), taking a sticky fault, refusing in FAILED and the
non-sticky error (spec/60_exceptions.md R131, R132, R133), hardware reset (spec/70_reset_and_hazards.md R150), construction
(spec/40_configure.md R71, R72), and the checks every predict command makes before its first write (R134). There is no
return from a fault (R137); hardware reset is the only way out of FAILED. -/

namespace Sys2Proof

/-! ### Variants -/

/-- BT exists for bimodal and hybrid (R23, R25), and M2 is a parameter of exactly these (R5). -/
def Variant.hasBT : Variant → Bool
  | .bimodal => true
  | .gshare => false
  | .hybrid => true

/-- GT and GHR exist for gshare and hybrid (R23, R26, R28), and M1 and N are parameters of exactly these (R5). -/
def Variant.hasGT : Variant → Bool
  | .bimodal => false
  | .gshare => true
  | .hybrid => true

/-- CT exists for hybrid (R23, R27), and K is a parameter of exactly that (R5). -/
def Variant.hasCT : Variant → Bool
  | .bimodal => false
  | .gshare => false
  | .hybrid => true

end Sys2Proof

namespace Sys2Proof.Machine

/-! ### Tables -/

/-- A table as CFG creates it: every entry `v` (R71). -/
def Table.filled (v : Counter) : Table := { fill := v, cells := [] }

/-- The first counter listed for index `i`, if any. -/
def lookupCell (i : Nat) : List (Nat × Counter) → Option Counter
  | [] => none
  | (j, v) :: rest => if j = i then some v else lookupCell i rest

/-- `x[i]` (R41): the counter at index `i`. -/
def Table.read (t : Table) (i : Nat) : Counter := (lookupCell i t.cells).getD t.fill

/-- The listing with `v` at index `i`, keeping the indices rising. -/
def insertCell (i : Nat) (v : Counter) : List (Nat × Counter) → List (Nat × Counter)
  | [] => [(i, v)]
  | (j, u) :: rest =>
    if i < j then (i, v) :: (j, u) :: rest
    else if i = j then (i, v) :: rest
    else (j, u) :: insertCell i v rest

/-- `x[i] <- v` (R41). Writing the value every unlisted entry holds takes the entry off the list, so that equal tables are
equal data. -/
def Table.write (t : Table) (i : Nat) (v : Counter) : Table :=
  if v = t.fill then { t with cells := t.cells.filter (fun c => decide (c.1 ≠ i)) }
  else { t with cells := insertCell i v t.cells }

/-- The indices of a listing rise strictly from above `lo`. -/
def risingAbove (lo : Nat) : List (Nat × Counter) → Bool
  | [] => true
  | (j, _) :: rest => decide (lo ≤ j) && risingAbove (j + 1) rest

/-- The canonical form of a table of `2 ^ width` entries: indices strictly rising and below `2 ^ width`, no listed entry
equal to what an unlisted one reads as. -/
def Table.wf (t : Table) (width : Nat) : Bool :=
  risingAbove 0 t.cells && t.cells.all (fun c => decide (c.1 < 2 ^ width) && decide (c.2 ≠ t.fill))

/-- The 2^W entries "in index order 0..2^W-1" (R115). -/
def TableView.values (v : TableView) : List Counter := (List.range (2 ^ v.width)).map v.table.read

/-- The tables of a snapshot as SNAP reports them: each name with its entries in index order (R115). -/
def SnapshotRecord.listing (r : SnapshotRecord) : List (TableName × List Counter) :=
  r.tables.map (fun v => (v.name, v.values))

/-! ### Codes -/

/-- The variant a code names, if it is recognised (R57, R70). -/
def recognisedVariant : VariantCode → Option Variant
  | .bimodal => some .bimodal
  | .gshare => some .gshare
  | .hybrid => some .hybrid
  | .unrecognised => none

/-- The numeric code of an error (R130). -/
def faultNumber : FaultCode → Nat
  | .noFault => 0
  | .illegalCommand => 1
  | .notConfigured => 2
  | .alreadyConfigured => 3
  | .cfgBadVariant => 4
  | .cfgWidthTooLarge => 5
  | .cfgHistoryTooLong => 6
  | .variantMismatch => 7
  | .counterOverflow => 8
  | .malformedOutcome => 9
  | .divisionUndefined => 10

/-! ### Responses, faults, reset -/

/-- `respond r` (R11, R61): the response reaches the host. -/
def State.respond (s : State) (r : Response) : State :=
  { s with responses := s.responses ++ [r] }

/-- `raise k` (R131): "sets `PHASE <- FAILED` and `FAULT <- k`, returns `FAULT(k)`, and changes nothing else". -/
def State.raise (s : State) (k : FaultCode) : State :=
  { s with phase := .failed, fault := k, responses := s.responses ++ [.fault k] }

/-- `error k` (R132): `ERROR(k)`, and no change of state at all. -/
def State.error (s : State) (k : FaultCode) : State :=
  s.respond (.error k)

/-- A command in FAILED (R133): `FAILED(FAULT)`, and no change of state. -/
def State.answerFailed (s : State) : State :=
  s.respond (.failed s.fault)

/-- Hardware reset (R150): UNCONFIGURED, no fault, the rest of the block's state ceases to exist; no response. -/
def State.hardwareReset (s : State) : State :=
  { s with
    phase := .unconfigured, fault := .noFault, cfgr := none, bt := none, gt := none, ct := none, ghr := none,
    pm := none, mp := none }

/-! ### CFG -/

/-- The table widths a variant uses (R70 step 2). -/
def usedWidths (v : Variant) (k m1 m2 : Width) : List Width :=
  match v with
  | .bimodal => [m2]
  | .gshare => [m1]
  | .hybrid => [k, m1, m2]

/-- R70 steps 2 and 3, in that order, of a recognised variant: the first check that fails. -/
def cfgRefusal (maxW : Nat) (v : Variant) (k m1 n m2 : Width) : Option FaultCode :=
  if (usedWidths v k m1 m2).any (fun w => decide (maxW < w.toNat)) then some .cfgWidthTooLarge
  else if v.hasGT ∧ m1.toNat < n.toNat then some .cfgHistoryTooLong
  else none

/-- CFGR as CFG writes it: "0 for" a field the variant does not use (R72, R74). -/
def acceptedCfgr (v : Variant) (k m1 n m2 : Width) : Cfgr :=
  { variant := v
    k := if v.hasCT then k else 0
    m1 := if v.hasGT then m1 else 0
    n := if v.hasGT then n else 0
    m2 := if v.hasBT then m2 else 0 }

/-- Construction (R71, R74): the state the variant has comes to exist at its initial values. -/
def State.construct (s : State) (v : Variant) (k m1 n m2 : Width) : State :=
  { s with
    phase := .running
    cfgr := some (acceptedCfgr v k m1 n m2)
    bt := if v.hasBT then some (.filled 2) else none
    gt := if v.hasGT then some (.filled 2) else none
    ct := if v.hasCT then some (.filled 1) else none
    ghr := if v.hasGT then some 0 else none
    pm := some 0
    mp := some 0 }

/-! ### Predict commands -/

/-- The checks of a predict command for variant `v` in the order of R134, all before its first write (R131); `body` runs
when all pass, on CFGR, PM and MP. -/
def predictWith (v : Variant) (o : BranchOutcome) (s : State) (body : Cfgr → Nat → Nat → Result) : Result :=
  match s.phase with
  | .failed => .next s.answerFailed
  | .unconfigured => .next (s.raise .notConfigured)
  | .running =>
    match s.cfgr, s.pm, s.mp with
    | some c, some pm, some mp =>
      if c.variant ≠ v then .next (s.raise .variantMismatch)
      else if pm = 2 ^ s.params.cntW - 1 then .next (s.raise .counterOverflow)
      else if o = .x ∧ s.params.malformedPolicy = .fault then .next (s.raise .malformedOutcome)
      else body c pm mp
    | _, _, _ => .fault .absentState

end Sys2Proof.Machine
end

