-- ==== Sys2Proof/Machine/Configure.lean ====
section
/-! DEFINITION. CFG: configure and construct (spec/40_configure.md R74). -/

namespace Sys2Proof.Machine

/-- CFG (R74): accepted only in UNCONFIGURED (R73); the checks of R70 in order; then construction (R71, R72) and OK. -/
def execCfg (v : VariantCode) (k m1 n m2 : Width) (s : State) : Result :=
  match s.phase with
  | .failed => .next s.answerFailed
  | .running => .next (s.raise .alreadyConfigured)
  | .unconfigured =>
    match recognisedVariant v with
    | none => .next (s.raise .cfgBadVariant)
    | some var =>
      match cfgRefusal s.params.maxW var k m1 n m2 with
      | some code => .next (s.raise code)
      | none => .next ((s.construct var k m1 n m2).respond .ok)

end Sys2Proof.Machine
end

