-- ==== Sys2Proof/Machine/Flags.lean ====
section
/-! DEFINITION. The block has no condition flags (spec/10_state.md R33). This file holds what a predict command computes
from counters and outcomes instead: the prediction, the misprediction test and the counter updates (spec/41_bimodal.md R80
to R82), and the hybrid's selection and chooser credit (spec/43_hybrid.md R102, R105, R106). -/

namespace Sys2Proof.Machine

/-- `pred(c)` (R80): T if c ≥ 2, else NT. -/
def pred (c : Counter) : Prediction := if 2 ≤ c.toNat then .t else .nt

/-- `min(c + 1, 3)` (R81, R105). -/
def countUp (c : Counter) : Counter := BitVec.ofNat 2 (min (c.toNat + 1) 3)

/-- `max(c - 1, 0)` (R81, R105). -/
def countDown (c : Counter) : Counter := BitVec.ofNat 2 (c.toNat - 1)

/-- `upd(c, o)` (R81). -/
def upd (c : Counter) : BranchOutcome → Counter
  | .t => countUp c
  | .nt => countDown c
  | .x => c

/-- `p = o` for a prediction and an outcome (R105); no prediction equals X. -/
def agrees : Prediction → BranchOutcome → Bool
  | .t, .t => true
  | .nt, .nt => true
  | .t, .nt => false
  | .nt, .t => false
  | .t, .x => false
  | .nt, .x => false

/-- `valid(o)` (R13): T or NT. -/
def valid : BranchOutcome → Bool
  | .t => true
  | .nt => true
  | .x => false

/-- `miss(p, o)` (R82): o is valid and p ≠ o. -/
def miss (p : Prediction) (o : BranchOutcome) : Bool := valid o && !agrees p o

/-- The chooser selects gshare when its counter is ≥ 2, else bimodal (R102). -/
def selectsGshare (chooser : Counter) : Bool := decide (2 ≤ chooser.toNat)

/-- The chooser credit (R105), none for X (R106): up when only gshare is right, down when only bimodal is. -/
def credit (chooser : Counter) (pb pg : Prediction) (o : BranchOutcome) : Counter :=
  if valid o then
    if agrees pg o && !agrees pb o then countUp chooser
    else if agrees pb o && !agrees pg o then countDown chooser
    else chooser
  else chooser

/-- MP after a command whose counted prediction is `p` (R30, R82). -/
def countMiss (mp : Nat) (p : Prediction) (o : BranchOutcome) : Nat := if miss p o then mp + 1 else mp

end Sys2Proof.Machine
end

