-- ==== Sys2Proof/Machine/Operands.lean ====
section
/-! DEFINITION. The operand arithmetic of the predict commands: the table indices formed from the address, and the history
that enters one of them (spec/41_bimodal.md R83, spec/42_gshare.md R90 to R94, spec/43_hybrid.md R101). Exact arithmetic on
naturals (R10). -/

namespace Sys2Proof.Machine

/-- `(a >> 2) mod 2^w`: the low `w` bits of the word address. Address bits [1:0] are never used (R43). -/
def wordIndex (a : Nat) (w : Nat) : Nat := (a >>> 2) % 2 ^ w

/-- `idx_b(a)` (R83), `m2` being CFGR.M2. -/
def idxB (a : Nat) (m2 : Width) : Nat := wordIndex a m2.toNat

/-- `pcBits(a)` (R90), `m1` being CFGR.M1. -/
def pcBits (a : Nat) (m1 : Width) : Nat := wordIndex a m1.toNat

/-- `idx_g(a, GHR)` (R91): the upper N bits of `pcBits` XORed with the history, the lower M1-N bits kept. -/
def idxG (a : Nat) (m1 n : Width) (ghr : Nat) : Nat :=
  let pc := pcBits a m1
  let low := m1.toNat - n.toNat
  if n.toNat = 0 then pc
  else (((pc >>> low) ^^^ ghr) <<< low) ||| (pc % 2 ^ low)

/-- `idx_c(a)` (R101), `k` being CFGR.K. -/
def idxC (a : Nat) (k : Width) : Nat := wordIndex a k.toNat

/-- `taken(o)` (R13): 1 for T and 0 otherwise. -/
def taken : BranchOutcome → Nat
  | .t => 1
  | .nt => 0
  | .x => 0

/-- The history update (R92, R94): shift right by one and set bit N-1 to `taken(o)`; with N = 0 nothing (R93). -/
def historyNext (n : Width) (ghr : Nat) (o : BranchOutcome) : Nat :=
  if n.toNat = 0 then ghr else (ghr >>> 1) ||| (taken o <<< (n.toNat - 1))

end Sys2Proof.Machine
end

