-- ==== Sys2Proof/Machine/Predict.lean ====
section
/-! DEFINITION. The three predict-and-update commands: BPU (spec/41_bimodal.md R84), GPU (spec/42_gshare.md R95) and HPU
(spec/43_hybrid.md R107). Each forms every index from the history before the command and every prediction from the counters
before it (spec/70_reset_and_hazards.md R154). -/

namespace Sys2Proof.Machine

/-- BPU (R84). -/
def execBpu (a : Nat) (o : BranchOutcome) (s : State) : Result :=
  predictWith .bimodal o s fun c pm mp =>
    match s.bt with
    | some bt =>
      let i := idxB a c.m2
      let p := pred (bt.read i)
      .next (State.respond
        { s with
          pm := some (pm + 1)
          mp := some (countMiss mp p o)
          bt := some (bt.write i (upd (bt.read i) o)) }
        (.pred p))
    | none => .fault .absentState

/-- GPU (R95). -/
def execGpu (a : Nat) (o : BranchOutcome) (s : State) : Result :=
  predictWith .gshare o s fun c pm mp =>
    match s.gt, s.ghr with
    | some gt, some ghr =>
      let i := idxG a c.m1 c.n ghr
      let p := pred (gt.read i)
      .next (State.respond
        { s with
          pm := some (pm + 1)
          mp := some (countMiss mp p o)
          gt := some (gt.write i (upd (gt.read i) o))
          ghr := some (historyNext c.n ghr o) }
        (.pred p))
    | _, _ => .fault .absentState

/-- HPU (R107): both sub-predictions (R100), the selection (R101, R102), the update of the selected table alone (R103), the
history (R104) and the chooser credit from both sub-predictions (R105, R106). -/
def execHpu (a : Nat) (o : BranchOutcome) (s : State) : Result :=
  predictWith .hybrid o s fun c pm mp =>
    match s.bt, s.gt, s.ct, s.ghr with
    | some bt, some gt, some ct, some ghr =>
      let ib := idxB a c.m2
      let ig := idxG a c.m1 c.n ghr
      let ic := idxC a c.k
      let pb := pred (bt.read ib)
      let pg := pred (gt.read ig)
      let selg := selectsGshare (ct.read ic)
      let p := if selg then pg else pb
      .next (State.respond
        { s with
          pm := some (pm + 1)
          mp := some (countMiss mp p o)
          bt := some (if selg then bt else bt.write ib (upd (bt.read ib) o))
          gt := some (if selg then gt.write ig (upd (gt.read ig) o) else gt)
          ghr := some (historyNext c.n ghr o)
          ct := some (ct.write ic (credit (ct.read ic) pb pg o)) }
        (.pred p))
    | _, _, _, _ => .fault .absentState

end Sys2Proof.Machine
end

