-- ==== Sys2Proof/Machine/Snapshot.lean ====
section
/-! DEFINITION. The read-out commands SNAP and RATE (spec/44_snapshot.md R115 to R117): pure reads, whose errors change no
state (spec/60_exceptions.md R132). -/

namespace Sys2Proof.Machine

/-- The tables SNAP reports for the configured variant, in R115's order; absent if one of them is. -/
def snapshotTables (c : Cfgr) (s : State) : Option (List TableView) :=
  match c.variant with
  | .bimodal =>
    match s.bt with
    | some bt => some [⟨.bimodal, c.m2.toNat, bt⟩]
    | none => none
  | .gshare =>
    match s.gt with
    | some gt => some [⟨.gshare, c.m1.toNat, gt⟩]
    | none => none
  | .hybrid =>
    match s.ct, s.gt, s.bt with
    | some ct, some gt, some bt =>
      some [⟨.chooser, c.k.toNat, ct⟩, ⟨.gshare, c.m1.toNat, gt⟩, ⟨.bimodal, c.m2.toNat, bt⟩]
    | _, _, _ => none

/-- SNAP (R115). -/
def execSnap (s : State) : Result :=
  match s.phase with
  | .failed => .next s.answerFailed
  | .unconfigured => .next (s.error .notConfigured)
  | .running =>
    match s.cfgr, s.pm, s.mp with
    | some c, some pm, some mp =>
      match snapshotTables c s with
      | some tables => .next (s.respond (.snapshot ⟨pm, mp, tables⟩))
      | none => .fault .absentState
    | _, _, _ => .fault .absentState

/-- RATE (R117): the exact rational `100 * MP / PM`. -/
def execRate (s : State) : Result :=
  match s.phase with
  | .failed => .next s.answerFailed
  | .unconfigured => .next (s.error .notConfigured)
  | .running =>
    match s.pm, s.mp with
    | some pm, some mp =>
      if pm = 0 then .next (s.error .divisionUndefined)
      else .next (s.respond (.rate (100 * mp) pm))
    | _, _ => .fault .absentState

end Sys2Proof.Machine
end

