-- ==== Sys2Proof/Machine/Dispatch.lean ====
section
/-! DEFINITION. The meaning of each command, one arm per row of spec/opcode_table.json. -/

namespace Sys2Proof.Machine

def exec (i : Instr) (s : State) : Host.Outcome State Fault Refusal :=
  match i with
  | .cfg v k m1 n m2 => Sys2Proof.Machine.execCfg v k m1 n m2 s
  | .bpu a o => Sys2Proof.Machine.execBpu a o s
  | .gpu a o => Sys2Proof.Machine.execGpu a o s
  | .hpu a o => Sys2Proof.Machine.execHpu a o s
  | .snap => Sys2Proof.Machine.execSnap s
  | .rate => Sys2Proof.Machine.execRate s

end Sys2Proof.Machine
end

