-- ==== Sys2Proof/Machine/Illegal.lean ====
section
/-! DEFINITION. What the block does with an illegal command word (spec/30_encoding.md R60, spec/60_exceptions.md R134). -/

namespace Sys2Proof.Machine

/-- An illegal word: in FAILED it is answered FAILED like every word (R133, R134 item 1); otherwise it takes the sticky
fault ILLEGAL_COMMAND, "in UNCONFIGURED and RUNNING alike" (R134 item 2). -/
def illegalWord (s : State) : State :=
  match s.phase with
  | .failed => s.answerFailed
  | .unconfigured => s.raise .illegalCommand
  | .running => s.raise .illegalCommand

end Sys2Proof.Machine
end

