-- ==== Sys2Proof/Machine/Step.lean ====
section
/-! DEFINITION. One step: the block takes what the host sent next (spec/20_memory.md R44, R45) and handles it to completion.
With nothing sent it "holds its state unchanged" (spec/60_exceptions.md R144). -/

namespace Sys2Proof.Machine

/-- One command word, to completion: decode (R62), then the command's meaning, in every phase (R134). -/
def runWord (w : Nat) (s : State) : Result :=
  match decode s.params w with
  | .command i => exec i s
  | .illegal _ => .next (illegalWord s)
  | .notAWord => .fault .notACommandWord

/-- One step of the machine. -/
def step (s : State) : Host.Outcome State Fault Refusal :=
  match s.pending with
  | [] => .next s
  | .reset :: rest => .next (State.hardwareReset { s with pending := rest })
  | .command w :: rest => runWord w { s with pending := rest }

/-- `s` with the word put where the block takes its next input: at the head of what the host has sent (log 4). -/
def State.withFetchWord (s : State) (nbits w : Nat) : State :=
  { s with pending := .command (w % 2 ^ nbits) :: s.pending }

end Sys2Proof.Machine
end

