-- ==== Sys2Proof/Machine/Assembler.lean ====
section
/-! DEFINITION. The spec's assembler (spec/30_encoding.md R65, R66): the text of a program, its lines as abstract records,
and the commands they assemble to. The assembler stands outside the block; no step uses it. What R65 leaves open of the
text (white space, capitals, repeated or too large numbers) is log 9's. -/

namespace Sys2Proof.Machine

/-- The width fields a CFG line can name (R65). -/
inductive AsmField where
  | k
  | m1
  | n
  | m2
deriving DecidableEq, Repr

/-- One line of a program (R65), PU among them (R66). -/
inductive AsmLine where
  | cfg (v : Variant) (fields : List (AsmField × Nat))
  | bpu (a : Nat) (o : BranchOutcome)
  | gpu (a : Nat) (o : BranchOutcome)
  | hpu (a : Nat) (o : BranchOutcome)
  | pu (a : Nat) (o : BranchOutcome)
  | snap
  | rate
deriving DecidableEq, Repr

/-- Why a program does not assemble. -/
inductive AsmError where
  /-- "writing a field the variant does not use is an assembly error" (R65). -/
  | unusedField
  /-- A CFG line names a field twice (log 9). -/
  | repeatedField
  /-- A width of more than 6 bits (R56; log 9). -/
  | widthTooLarge
  /-- An address of more than ADDR_W bits (R58; log 9). -/
  | addressTooLarge
  /-- PU "with no earlier `CFG`" (R66). -/
  | puBeforeCfg
  /-- The line has none of the forms of R65 and R66. -/
  | badLine
deriving DecidableEq, Repr

/-- What assembling answers. -/
inductive Assembled (α : Type) where
  | ok (value : α)
  | error (why : AsmError)
deriving DecidableEq, Repr

/-- The widths a variant uses (R5). -/
def usesField (v : Variant) : AsmField → Bool
  | .k => v.hasCT
  | .m1 => v.hasGT
  | .n => v.hasGT
  | .m2 => v.hasBT

/-- The width a CFG line names, "and 0 in the fields it omits" (R65). -/
def fieldValue (f : AsmField) : List (AsmField × Nat) → Nat
  | [] => 0
  | (g, x) :: rest => if g = f then x else fieldValue f rest

/-- Some field is named twice. -/
def repeatsField : List (AsmField × Nat) → Bool
  | [] => false
  | (g, _) :: rest => rest.any (fun c => decide (c.1 = g)) || repeatsField rest

/-- The code of the variant a CFG line names. -/
def namedCode : Variant → VariantCode
  | .bimodal => .bimodal
  | .gshare => .gshare
  | .hybrid => .hybrid

/-- A CFG line (R65). -/
def assembleCfg (v : Variant) (fields : List (AsmField × Nat)) : Assembled Instr :=
  if fields.any (fun c => !usesField v c.1) then .error .unusedField
  else if repeatsField fields then .error .repeatedField
  else if fields.any (fun c => decide (64 ≤ c.2)) then .error .widthTooLarge
  else .ok (.cfg (namedCode v) (BitVec.ofNat 6 (fieldValue .k fields)) (BitVec.ofNat 6 (fieldValue .m1 fields))
    (BitVec.ofNat 6 (fieldValue .n fields)) (BitVec.ofNat 6 (fieldValue .m2 fields)))

/-- A predict line, its address within ADDR_W bits. -/
def assemblePredict (p : Params) (mk : Nat → BranchOutcome → Instr) (a : Nat) (o : BranchOutcome) : Assembled Instr :=
  if a < 2 ^ p.addrW then .ok (mk a o) else .error .addressTooLarge

/-- The predict command of a variant: what PU expands to (R66). -/
def predictOf : Variant → Nat → BranchOutcome → Instr
  | .bimodal => .bpu
  | .gshare => .gpu
  | .hybrid => .hpu

/-- One line, `last` being the variant of the last CFG before it. -/
def assembleLine (p : Params) (last : Option Variant) : AsmLine → Assembled Instr
  | .cfg v fields => assembleCfg v fields
  | .bpu a o => assemblePredict p .bpu a o
  | .gpu a o => assemblePredict p .gpu a o
  | .hpu a o => assemblePredict p .hpu a o
  | .pu a o =>
    match last with
    | some v => assemblePredict p (predictOf v) a o
    | none => .error .puBeforeCfg
  | .snap => .ok .snap
  | .rate => .ok .rate

/-- The variant of the last CFG, after a line. -/
def lastVariant (last : Option Variant) : AsmLine → Option Variant
  | .cfg v _ => some v
  | .bpu _ _ => last
  | .gpu _ _ => last
  | .hpu _ _ => last
  | .pu _ _ => last
  | .snap => last
  | .rate => last

/-- A program from some line on. -/
def assembleFrom (p : Params) (last : Option Variant) : List AsmLine → Assembled (List Instr)
  | [] => .ok []
  | line :: rest =>
    match assembleLine p last line with
    | .error e => .error e
    | .ok i =>
      match assembleFrom p (lastVariant last line) rest with
      | .error e => .error e
      | .ok is => .ok (i :: is)

/-- A whole program: no CFG stands before its first line. -/
def assemble (p : Params) (program : List AsmLine) : Assembled (List Instr) := assembleFrom p none program

/-! ### The text of a line -/

/-- The pieces of a line. -/
inductive AsmToken where
  | word (cs : List Char)
  | comma
  | equals
deriving DecidableEq, Repr

/-- The word gathered so far (its characters last first), if any, before the tokens that follow it. -/
def closeWord (gathered : List Char) (rest : List AsmToken) : List AsmToken :=
  match gathered with
  | [] => rest
  | c :: cs => .word (c :: cs).reverse :: rest

/-- The tokens of a line; "`;` to end of line a comment". -/
def tokens (gathered : List Char) : List Char → List AsmToken
  | [] => closeWord gathered []
  | c :: cs =>
    if c = ';' then closeWord gathered []
    else if c = ' ' ∨ c = '\t' ∨ c = '\r' then closeWord gathered (tokens [] cs)
    else if c = ',' then closeWord gathered (.comma :: tokens [] cs)
    else if c = '=' then closeWord gathered (.equals :: tokens [] cs)
    else tokens (c :: gathered) cs

/-- The value of a digit. -/
def digitValue (c : Char) : Nat :=
  if '0' ≤ c ∧ c ≤ '9' then c.toNat - '0'.toNat
  else if 'a' ≤ c ∧ c ≤ 'f' then c.toNat - 'a'.toNat + 10
  else if 'A' ≤ c ∧ c ≤ 'F' then c.toNat - 'A'.toNat + 10
  else 16

/-- The digits of a number in the given base, `acc` the value so far. -/
def digits (base acc : Nat) : List Char → Option Nat
  | [] => some acc
  | c :: cs => if digitValue c < base then digits base (base * acc + digitValue c) cs else none

/-- "numbers decimal or `0x` hexadecimal" (R65). -/
def number : List Char → Option Nat
  | [] => none
  | '0' :: 'x' :: [] => none
  | '0' :: 'x' :: c :: cs => digits 16 0 (c :: cs)
  | c :: cs => digits 10 0 (c :: cs)

/-- "`<o>` is T, NT or X". -/
def outcomeWord (cs : List Char) : Option BranchOutcome :=
  if cs = ['T'] then some .t
  else if cs = ['N', 'T'] then some .nt
  else if cs = ['X'] then some .x
  else none

/-- The variant names of R65. -/
def variantWord (cs : List Char) : Option Variant :=
  if cs = ['b', 'i', 'm', 'o', 'd', 'a', 'l'] then some .bimodal
  else if cs = ['g', 's', 'h', 'a', 'r', 'e'] then some .gshare
  else if cs = ['h', 'y', 'b', 'r', 'i', 'd'] then some .hybrid
  else none

/-- The field names of R65. -/
def fieldWord (cs : List Char) : Option AsmField :=
  if cs = ['K'] then some .k
  else if cs = ['M', '1'] then some .m1
  else if cs = ['N'] then some .n
  else if cs = ['M', '2'] then some .m2
  else none

/-- The fields of a CFG line: each ", NAME=value". -/
def fieldsOf : List AsmToken → Option (List (AsmField × Nat))
  | [] => some []
  | .comma :: .word f :: .equals :: .word x :: rest =>
    match fieldWord f, number x, fieldsOf rest with
    | some g, some v, some more => some ((g, v) :: more)
    | _, _, _ => none
  | _ => none

/-- The operands of a predict line: "<addr>, <o>". -/
def predictOperands : List AsmToken → Option (Nat × BranchOutcome)
  | [.word a, .comma, .word o] =>
    match number a, outcomeWord o with
    | some x, some y => some (x, y)
    | _, _ => none
  | _ => none

/-- A predict line with the given record. -/
def predictLine (mk : Nat → BranchOutcome → AsmLine) (operands : List AsmToken) : Assembled (Option AsmLine) :=
  match predictOperands operands with
  | some (a, o) => .ok (some (mk a o))
  | none => .error .badLine

/-- A CFG line. -/
def cfgLine : List AsmToken → Assembled (Option AsmLine)
  | .word v :: rest =>
    match variantWord v, fieldsOf rest with
    | some var, some fields => .ok (some (.cfg var fields))
    | _, _ => .error .badLine
  | _ => .error .badLine

/-- One line of text; a blank or comment line stands for no command. -/
def parseTokens : List AsmToken → Assembled (Option AsmLine)
  | [] => .ok none
  | .word m :: rest =>
    if m = ['C', 'F', 'G'] then cfgLine rest
    else if m = ['B', 'P', 'U'] then predictLine .bpu rest
    else if m = ['G', 'P', 'U'] then predictLine .gpu rest
    else if m = ['H', 'P', 'U'] then predictLine .hpu rest
    else if m = ['P', 'U'] then predictLine .pu rest
    else if m = ['S', 'N', 'A', 'P'] ∧ rest = [] then .ok (some .snap)
    else if m = ['R', 'A', 'T', 'E'] ∧ rest = [] then .ok (some .rate)
    else .error .badLine
  | _ :: _ => .error .badLine

/-- The text split at line ends, `line` the characters gathered so far (last first). -/
def splitLines (line : List Char) : List Char → List (List Char)
  | [] => [line.reverse]
  | c :: cs => if c = '\n' then line.reverse :: splitLines [] cs else splitLines (c :: line) cs

/-- The lines of a program, "one command per line". -/
def parseLines : List (List Char) → Assembled (List AsmLine)
  | [] => .ok []
  | cs :: rest =>
    match parseTokens (tokens [] cs), parseLines rest with
    | .error e, _ => .error e
    | .ok _, .error e => .error e
    | .ok none, .ok lines => .ok lines
    | .ok (some l), .ok lines => .ok (l :: lines)

/-- A program's text, to command words. -/
def assembleText (p : Params) (text : List Char) : Assembled (List Nat) :=
  match parseLines (splitLines [] text) with
  | .error e => .error e
  | .ok lines =>
    match assemble p lines with
    | .error e => .error e
    | .ok is => .ok (is.map encode)

end Sys2Proof.Machine
end

