-- ==== Sys2Proof/Safety.lean ====
section
/-! DEFINITION. The terms claims are stated in: the invariant of the block's state (what spec/10_state.md R22 to R32 say of
it in every phase), and runs of commands. -/

namespace Sys2Proof.Machine

/-- The codes a sticky fault can have (R130): all but NONE and DIVISION_UNDEFINED. -/
def FaultCode.sticky : FaultCode → Bool
  | .noFault => false
  | .illegalCommand => true
  | .notConfigured => true
  | .alreadyConfigured => true
  | .cfgBadVariant => true
  | .cfgWidthTooLarge => true
  | .cfgHistoryTooLong => true
  | .variantMismatch => true
  | .counterOverflow => true
  | .malformedOutcome => true
  | .divisionUndefined => false

/-- FAULT is NONE but in FAILED, where it is a sticky code (R31, R32); CFGR is absent in UNCONFIGURED and present in
RUNNING (R31). -/
def State.phaseInv (s : State) : Bool :=
  match s.phase with
  | .unconfigured => decide (s.fault = .noFault) && s.cfgr.isNone
  | .running => decide (s.fault = .noFault) && s.cfgr.isSome
  | .failed => s.fault.sticky

/-- CFGR holds an accepted configuration (R22, R70, R72): widths at most MAX_W, N at most M1, unused fields 0. -/
def Cfgr.wf (p : Params) (c : Cfgr) : Bool :=
  decide (c.k.toNat ≤ p.maxW) && decide (c.m1.toNat ≤ p.maxW) && decide (c.m2.toNat ≤ p.maxW) &&
    decide (c.n.toNat ≤ c.m1.toNat) &&
    (c.variant.hasCT || decide (c.k = 0)) && (c.variant.hasGT || decide (c.m1 = 0)) && (c.variant.hasBT || decide (c.m2 = 0))

/-- A table that exists exactly when `present` says so, in canonical form, filled with `fill` (R23, R25 to R27). -/
def tableInv (present : Bool) (width : Width) (fill : Counter) : Option Table → Bool
  | none => !present
  | some t => present && t.wf width.toNat && decide (t.fill = fill)

/-- GHR exists exactly when `present` says so, and has N bits (R28). -/
def historyInv (present : Bool) (n : Width) : Option Nat → Bool
  | none => !present
  | some g => present && decide (g < 2 ^ n.toNat)

/-- `MP ≤ PM`, and PM fits CNT_W bits (R29, R30). -/
def countersInv (p : Params) : Option Nat → Option Nat → Bool
  | some pm, some mp => decide (mp ≤ pm) && decide (pm ≤ 2 ^ p.cntW - 1)
  | some _, none => false
  | none, some _ => false
  | none, none => false

/-- What exists, exists as the configuration says (R23, R31); with no configuration nothing exists (R150). -/
def State.engineInv (s : State) : Bool :=
  match s.cfgr with
  | none => s.bt.isNone && s.gt.isNone && s.ct.isNone && s.ghr.isNone && s.pm.isNone && s.mp.isNone
  | some c =>
    c.wf s.params && tableInv c.variant.hasBT c.m2 2 s.bt && tableInv c.variant.hasGT c.m1 2 s.gt &&
      tableInv c.variant.hasCT c.k 1 s.ct && historyInv c.variant.hasGT c.n s.ghr && countersInv s.params s.pm s.mp

/-- What the host sends are command words of CMD_W bits (R52) and resets. -/
def HostInput.wf (p : Params) : HostInput → Bool
  | .command w => decide (w < 2 ^ p.cmdW)
  | .reset => true

/-- Every word the host has sent is a command word. -/
def State.pendingInv (s : State) : Bool := s.pending.all (fun i => i.wf s.params)

/-- The invariant: true of the state after reset, and kept by every step. -/
def State.inv (s : State) : Bool := s.params.wf && s.phaseInv && s.engineInv && s.pendingInv

/-- The invariant as a proposition. -/
abbrev State.Inv (s : State) : Prop := s.inv = true

/-- A run of commands, in order, from a state: each command sees every effect of those before it (R45). -/
def execAll : List Instr → State → Result
  | [], s => .next s
  | i :: rest, s =>
    match exec i s with
    | .next t => execAll rest t
    | .fault r => .fault r
    | .refused r => .refused r

/-- The outcome a command enters into the history register (R92): those of GPU and HPU, no other command's. -/
def historyOutcome : Instr → Option BranchOutcome
  | .cfg _ _ _ _ _ => none
  | .bpu _ _ => none
  | .gpu _ o => some o
  | .hpu _ o => some o
  | .snap => none
  | .rate => none

end Sys2Proof.Machine
end

