-- ==== Sys2Proof/Certificates/Slice0/Obligations.lean ====
section
/-! DEFINITION. The statements for the provers, from the numbered rules of spec/. Each docstring names what it formalises. A
table is read through `Table.read`; `exec i s = .next t` says that the command `i` is answered and leaves `t`. The lists
`pending` and `responses`, in which inputs wait and answers are kept, are the model's own form of the transaction interface
(R12; logs 3 and 4), and `params` holds the instance's implementation parameters (R6 to R9; log 1): a statement for every
state holds for every choice of them. -/

open Sys2Proof Sys2Proof.Machine

/-! ### Reset, step, invariant -/

/-- 70_reset_and_hazards.md R150, R151, of the model's reset state. -/
def Obligations.ResetStateHoldsNothing : Prop :=
  State.reset.phase = .unconfigured ∧ State.reset.fault = .noFault ∧ State.reset.cfgr = none ∧ State.reset.bt = none ∧
    State.reset.gt = none ∧ State.reset.ct = none ∧ State.reset.ghr = none ∧ State.reset.pm = none ∧
    State.reset.mp = none

/-- R150: the hardware reset in any phase and state ("Reset returns no response"), and the only way out of FAILED; R31: the
only way back to UNCONFIGURED. That a step takes the reset from `pending` and leaves the inputs behind it there, and that the
answers already given stay listed in `responses`, is the model's choice (logs 4 and 3). -/
def Obligations.HardwareResetInAnyPhase : Prop :=
  (∀ (s : State) (rest : List HostInput), s.pending = .reset :: rest →
    step s = .next
      { params := s.params, phase := .unconfigured, fault := .noFault, cfgr := none, bt := none, gt := none, ct := none,
        ghr := none, pm := none, mp := none, pending := rest, responses := s.responses }) ∧
  (∀ s t : State, step s = .next t → s.phase = .failed → t.phase ≠ .failed → s.pending = .reset :: t.pending) ∧
  (∀ s t : State, step s = .next t → s.phase ≠ .unconfigured → t.phase = .unconfigured →
    s.pending = .reset :: t.pending)

/-- The invariant holds after reset. -/
def Obligations.ResetMeetsInvariant : Prop := State.reset.Inv

/-- Every step keeps the invariant: what exists in each phase (R23, R31, R150), FAULT against PHASE (R32), CFGR an accepted
configuration (R22), tables within their size (R25 to R27) and in the model's canonical form (log 6), GHR within N bits
(R28), MP ≤ PM within CNT_W bits (R29, R30), and pending words of CMD_W bits (R52; logs 4 and 5). -/
def Obligations.StepKeepsInvariant : Prop :=
  ∀ s t : State, s.Inv → step s = .next t → t.Inv

/-- From a state that meets the invariant the machine never stops: every command word gets an answer (R61, R62, R134). The
two stops it rules out are the model's own (logs 2 and 5). -/
def Obligations.InvariantStatesNeverStop : Prop :=
  ∀ s : State, s.Inv → ∃ t : State, step s = .next t

/-- R45, R62: the next pending word, decoded, is what the step runs, the word taken off `pending`. -/
def Obligations.StepRunsDecodedCommand : Prop :=
  ∀ (s : State) (w : Nat) (rest : List HostInput) (i : Instr),
    s.pending = .command w :: rest → decode s.params w = .command i → step s = exec i { s with pending := rest }

/-- R60, R134 items 1 and 2: an illegal word takes ILLEGAL_COMMAND, and is answered FAILED if the block already is. -/
def Obligations.IllegalWordTakesIllegalCommand : Prop :=
  ∀ (s : State) (w : Nat) (rest : List HostInput) (why : IllegalReason),
    s.pending = .command w :: rest → decode s.params w = .illegal why →
      (s.phase ≠ .failed → step s = .next
        { s with
          pending := rest, phase := .failed, fault := .illegalCommand
          responses := s.responses ++ [.fault .illegalCommand] }) ∧
      (s.phase = .failed → step s = .next
        { s with pending := rest, responses := s.responses ++ [.failed s.fault] })

/-- R144: with nothing sent the block "holds its state unchanged"; that a step then changes nothing is the model's form of it
(log 4). -/
def Obligations.IdleStepChangesNothing : Prop :=
  ∀ s : State, s.pending = [] → step s = .next s

/-- R61, R116: a command word gets exactly one response, after all earlier ones, which stay as they were; a reset and an
idle step get none. -/
def Obligations.EveryCommandAnsweredOnce : Prop :=
  ∀ s t : State, step s = .next t →
    (∃ w r, s.pending = .command w :: t.pending ∧ t.responses = s.responses ++ [r]) ∨
    (s.pending = .reset :: t.pending ∧ t.responses = s.responses) ∨
    (s.pending = [] ∧ t = s)

/-! ### Encoding -/

/-- The encoding examples of 30_encoding.md section 7 and of 95_test_vectors.md section 2.7, at the default parameters. -/
def Obligations.SpecExampleWordsDecode : Prop :=
  decode .default 0x0200000001 = .command (.cfg .bimodal 0 0 0 2) ∧
  decode .default 0x0002020011 = .command (.cfg .gshare 0 2 2 0) ∧
  decode .default 0x0101020121 = .command (.cfg .hybrid 1 2 1 1) ∧
  decode .default 0x0000000412 = .command (.bpu 0x4 .t) ∧
  decode .default 0x0000000722 = .command (.bpu 0x7 .x) ∧
  decode .default 0x0000000432 = .command (.bpu 0x4 .x) ∧
  decode .default 0x0000000813 = .command (.gpu 0x8 .t) ∧
  decode .default 0xFFFFFFFC04 = .command (.hpu 0xFFFFFFFC .nt) ∧
  decode .default 0x0000000005 = .command .snap ∧
  decode .default 0x0000000006 = .command .rate ∧
  decode .default 0x0000000007 = .illegal .reservedOpcode ∧
  decode .default 0x0000000042 = .illegal .reservedBit

/-- R53 to R59, R62: the decoder reads back every well-formed command from its word, at every parameter choice. -/
def Obligations.DecodeOfEncode : Prop :=
  ∀ (p : Params) (i : Instr), p.wf = true → i.wellFormed p = true → decode p (encode i) = .command i

/-- The other direction: a word that decodes to a command is that command's word, but for a predict word whose outcome code
is 0b11, which "means the same as 0b10" (R55); and a decoded command is well formed. -/
def Obligations.EncodeOfDecode : Prop :=
  ∀ (p : Params) (w : Nat) (i : Instr), p.wf = true → decode p w = .command i →
    i.wellFormed p = true ∧
      (encode i = w ∨ ((bits w 3 0 = 2 ∨ bits w 3 0 = 3 ∨ bits w 3 0 = 4) ∧ bits w 5 4 = 3 ∧ encode i + 2 ^ 4 = w))

/-- R60, R62, bit by bit: a CMD_W-bit word is illegal exactly when its opcode is reserved or a reserved bit of its command
is 1, and otherwise it decodes to a command. -/
def Obligations.IllegalWordsAreTheReservedOnes : Prop :=
  ∀ (p : Params) (w : Nat), p.wf = true → w < 2 ^ p.cmdW →
    ((∃ why, decode p w = .illegal why) ↔
      (w % 16 = 0 ∨ 7 ≤ w % 16) ∨
      (w.testBit 6 = true ∨ w.testBit 7 = true) ∨
      (w % 16 = 1 ∧ ∃ b, w.testBit b = true ∧
        (b = 14 ∨ b = 15 ∨ b = 22 ∨ b = 23 ∨ b = 30 ∨ b = 31 ∨ 38 ≤ b)) ∨
      ((w % 16 = 2 ∨ w % 16 = 3 ∨ w % 16 = 4) ∧ ∃ b, w.testBit b = true ∧ 8 + p.addrW ≤ b) ∨
      ((w % 16 = 5 ∨ w % 16 = 6) ∧ ∃ b, w.testBit b = true ∧ 4 ≤ b)) ∧
    ((∃ why, decode p w = .illegal why) ∨ ∃ i, decode p w = .command i)

/-- R55, R58: outcome code 0b00 is NT, 0b01 is T, 0b10 and 0b11 are both X, in each of the three predict commands. -/
def Obligations.OutcomeCodesDecode : Prop :=
  ∀ (p : Params) (a : Nat), p.wf = true → a < 2 ^ p.addrW →
    ∀ (op : Nat) (mk : Nat → BranchOutcome → Instr),
      (op, mk) = (2, Instr.bpu) ∨ (op, mk) = (3, Instr.gpu) ∨ (op, mk) = (4, Instr.hpu) →
      decode p (op + 0b00 * 2 ^ 4 + a * 2 ^ 8) = .command (mk a .nt) ∧
      decode p (op + 0b01 * 2 ^ 4 + a * 2 ^ 8) = .command (mk a .t) ∧
      decode p (op + 0b10 * 2 ^ 4 + a * 2 ^ 8) = .command (mk a .x) ∧
      decode p (op + 0b11 * 2 ^ 4 + a * 2 ^ 8) = .command (mk a .x)

/-! ### Counters, indices, chooser credit -/

/-- 41_bimodal.md R80. -/
def Obligations.CounterPrediction : Prop :=
  ∀ c : Counter,
    (pred c = .t ↔ 2 ≤ c.toNat) ∧ (pred c = .nt ↔ ¬ 2 ≤ c.toNat) ∧ (pred c = .t ↔ c.getLsbD 1 = true)

/-- R81: the update, as numbers; the result stays in [0,3]. -/
def Obligations.CounterUpdateSaturates : Prop :=
  ∀ c : Counter,
    (upd c .t).toNat = min (c.toNat + 1) 3 ∧ (upd c .nt).toNat = max (c.toNat - 1) 0 ∧ upd c .x = c ∧
      ∀ o, (upd c o).toNat ≤ 3

/-- R82: `miss` is true exactly for a valid outcome that differs from the prediction. -/
def Obligations.MispredictionTest : Prop :=
  miss .t .t = false ∧ miss .t .nt = true ∧ miss .nt .t = true ∧ miss .nt .nt = false ∧ miss .t .x = false ∧
    miss .nt .x = false

/-- R83: the bimodal index as shift and mask, as a field of an ADDR_W-bit address, its bound, M2 = 0, and that address bits
[1:0] are not used. -/
def Obligations.BimodalIndex : Prop :=
  ∀ (a : Nat) (m2 : Width),
    idxB a m2 = (a >>> 2) &&& ((1 <<< m2.toNat) - 1) ∧
    idxB a m2 = (a >>> 2) % 2 ^ m2.toNat ∧
    (∀ addrW, 2 ≤ addrW → a < 2 ^ addrW → m2.toNat ≤ addrW - 2 → idxB a m2 = bits a (m2.toNat + 1) 2) ∧
    (∀ addrW, 2 ≤ addrW → a < 2 ^ addrW → addrW - 2 < m2.toNat →
      idxB a m2 = bits a (addrW - 1) 2 ∧ ∀ j, addrW - 3 < j → (idxB a m2).testBit j = false) ∧
    (m2.toNat = 0 → idxB a m2 = 0) ∧
    idxB a m2 < 2 ^ m2.toNat ∧
    (∀ b : Nat, b >>> 2 = a >>> 2 → idxB b m2 = idxB a m2)

/-- R90, R91: the PC bits; the gshare index by upper and lower bits; its equivalent form; its bound; the case N = 0. -/
def Obligations.GshareIndex : Prop :=
  ∀ (a : Nat) (m1 n : Width) (ghr : Nat), n.toNat ≤ m1.toNat → ghr < 2 ^ n.toNat →
    pcBits a m1 = (a >>> 2) &&& ((1 <<< m1.toNat) - 1) ∧
    pcBits a m1 = (a >>> 2) % 2 ^ m1.toNat ∧
    (∀ addrW, 2 ≤ addrW → a < 2 ^ addrW →
      (m1.toNat ≤ addrW - 2 → pcBits a m1 = bits a (m1.toNat + 1) 2) ∧
      (addrW - 2 < m1.toNat → pcBits a m1 = bits a (addrW - 1) 2)) ∧
    (n.toNat = 0 → idxG a m1 n ghr = pcBits a m1) ∧
    (1 ≤ n.toNat → idxG a m1 n ghr =
      (((pcBits a m1 >>> (m1.toNat - n.toNat)) ^^^ ghr) <<< (m1.toNat - n.toNat)) |||
        (pcBits a m1 % 2 ^ (m1.toNat - n.toNat))) ∧
    idxG a m1 n ghr = pcBits a m1 ^^^ (ghr <<< (m1.toNat - n.toNat)) ∧
    idxG a m1 n ghr < 2 ^ m1.toNat

/-- 43_hybrid.md R101: the chooser index. -/
def Obligations.ChooserIndex : Prop :=
  ∀ (a : Nat) (k : Width),
    idxC a k = (a >>> 2) &&& ((1 <<< k.toNat) - 1) ∧
    idxC a k = (a >>> 2) % 2 ^ k.toNat ∧
    (∀ addrW, 2 ≤ addrW → a < 2 ^ addrW → k.toNat ≤ addrW - 2 → idxC a k = bits a (k.toNat + 1) 2) ∧
    (∀ addrW, 2 ≤ addrW → a < 2 ^ addrW → addrW - 2 < k.toNat → idxC a k = bits a (addrW - 1) 2) ∧
    idxC a k < 2 ^ k.toNat

/-- 20_memory.md R41: "no access is ever out of range". -/
def Obligations.IndicesInRange : Prop :=
  ∀ (s : State) (c : Cfgr) (a : Nat), s.Inv → s.cfgr = some c →
    idxB a c.m2 < 2 ^ c.m2.toNat ∧ idxC a c.k < 2 ^ c.k.toNat ∧
      ∀ g, s.ghr = some g → idxG a c.m1 c.n g < 2 ^ c.m1.toNat

/-- R105: the four rows of the credit table, for a valid outcome; and that the chooser can move only where the
sub-predictions differ. -/
def Obligations.ChooserCredit : Prop :=
  ∀ (c : Counter) (pb pg : Prediction) (o : BranchOutcome), valid o = true →
    (agrees pg o = true → agrees pb o = false → (credit c pb pg o).toNat = min (c.toNat + 1) 3) ∧
    (agrees pg o = false → agrees pb o = true → (credit c pb pg o).toNat = max (c.toNat - 1) 0) ∧
    (agrees pg o = true → agrees pb o = true → credit c pb pg o = c) ∧
    (agrees pg o = false → agrees pb o = false → credit c pb pg o = c) ∧
    (agrees pg o ≠ agrees pb o ↔ pg ≠ pb) ∧
    (credit c pb pg o ≠ c → pg ≠ pb)

/-! ### CFG -/

/-- 40_configure.md R71, R72: an accepted CFG, per variant: CFGR, with 0 for the fields the variant does not use; the
tables that exist, every entry 2 (BT, GT) or 1 (CT); GHR, PM and MP 0; RUNNING; OK. Nothing else changes, and the unused
fields may hold anything. -/
def Obligations.CfgConstructs : Prop :=
  (∀ (s : State) (k m1 n m2 : Width), s.phase = .unconfigured → m2.toNat ≤ s.params.maxW →
    exec (.cfg .bimodal k m1 n m2) s = .next
      { s with
        phase := .running, cfgr := some ⟨.bimodal, 0, 0, 0, m2⟩, bt := some (.filled 2), gt := none, ct := none,
        ghr := none, pm := some 0, mp := some 0, responses := s.responses ++ [.ok] }) ∧
  (∀ (s : State) (k m1 n m2 : Width), s.phase = .unconfigured → m1.toNat ≤ s.params.maxW → n.toNat ≤ m1.toNat →
    exec (.cfg .gshare k m1 n m2) s = .next
      { s with
        phase := .running, cfgr := some ⟨.gshare, 0, m1, n, 0⟩, bt := none, gt := some (.filled 2), ct := none,
        ghr := some 0, pm := some 0, mp := some 0, responses := s.responses ++ [.ok] }) ∧
  (∀ (s : State) (k m1 n m2 : Width), s.phase = .unconfigured → k.toNat ≤ s.params.maxW → m1.toNat ≤ s.params.maxW →
    m2.toNat ≤ s.params.maxW → n.toNat ≤ m1.toNat →
    exec (.cfg .hybrid k m1 n m2) s = .next
      { s with
        phase := .running, cfgr := some ⟨.hybrid, k, m1, n, m2⟩, bt := some (.filled 2), gt := some (.filled 2),
        ct := some (.filled 1), ghr := some 0, pm := some 0, mp := some 0, responses := s.responses ++ [.ok] }) ∧
  (∀ (v : Counter) (i : Nat), (Table.filled v).read i = v)

/-- R70, R73: the checks of CFG, in their order, each the sticky fault of its code. -/
def Obligations.CfgChecksInOrder : Prop :=
  ∀ (s : State) (v : VariantCode) (k m1 n m2 : Width),
    let faulted (code : FaultCode) : Result := .next
      { s with phase := .failed, fault := code, responses := s.responses ++ [.fault code] }
    let tooWide : Prop :=
      (v = .bimodal ∧ s.params.maxW < m2.toNat) ∨ (v = .gshare ∧ s.params.maxW < m1.toNat) ∨
      (v = .hybrid ∧ (s.params.maxW < k.toNat ∨ s.params.maxW < m1.toNat ∨ s.params.maxW < m2.toNat))
    (s.phase = .running → exec (.cfg v k m1 n m2) s = faulted .alreadyConfigured) ∧
    (s.phase = .unconfigured → v = .unrecognised → exec (.cfg v k m1 n m2) s = faulted .cfgBadVariant) ∧
    (s.phase = .unconfigured → tooWide → exec (.cfg v k m1 n m2) s = faulted .cfgWidthTooLarge) ∧
    (s.phase = .unconfigured → ¬ tooWide → (v = .gshare ∨ v = .hybrid) → m1.toNat < n.toNat →
      exec (.cfg v k m1 n m2) s = faulted .cfgHistoryTooLong) ∧
    (s.phase = .failed →
      exec (.cfg v k m1 n m2) s = .next { s with responses := s.responses ++ [.failed s.fault] })

/-- R31, R73, R131: what CFG leaves alone: the parameters and what the host sent always; the whole engine unless it was
accepted, which it is only in UNCONFIGURED. -/
def Obligations.CfgFrame : Prop :=
  ∀ (s t : State) (v : VariantCode) (k m1 n m2 : Width), exec (.cfg v k m1 n m2) s = .next t →
    t.params = s.params ∧ t.pending = s.pending ∧ (∃ r, t.responses = s.responses ++ [r]) ∧
    ((s.phase = .unconfigured ∧ t.phase = .running ∧ t.fault = s.fault ∧ t.responses = s.responses ++ [.ok]) ∨
      (t.phase = .failed ∧ t.cfgr = s.cfgr ∧ t.bt = s.bt ∧ t.gt = s.gt ∧ t.ct = s.ct ∧ t.ghr = s.ghr ∧
        t.pm = s.pm ∧ t.mp = s.mp))

/-! ### The predict commands: results -/

/-- 41_bimodal.md R84: BPU completes in RUNNING with a bimodal configuration, PM short of its maximum, and an outcome that
is valid or tolerated. -/
def Obligations.BpuPredictsAndUpdates : Prop :=
  ∀ (s : State) (a : Nat) (o : BranchOutcome) (c : Cfgr) (bt : Table) (pm mp : Nat),
    s.phase = .running → s.cfgr = some c → c.variant = .bimodal → s.bt = some bt → s.pm = some pm → s.mp = some mp →
    pm ≠ 2 ^ s.params.cntW - 1 → ¬ (o = .x ∧ s.params.malformedPolicy = .fault) →
    let i := idxB a c.m2
    let p := pred (bt.read i)
    exec (.bpu a o) s = .next
      { s with
        pm := some (pm + 1)
        mp := some (if miss p o then mp + 1 else mp)
        bt := some (bt.write i (upd (bt.read i) o))
        responses := s.responses ++ [.pred p] }

/-- 42_gshare.md R92, R93, R95: GPU completes, its index formed from the history before the update. -/
def Obligations.GpuPredictsAndUpdates : Prop :=
  ∀ (s : State) (a : Nat) (o : BranchOutcome) (c : Cfgr) (gt : Table) (ghr pm mp : Nat),
    s.phase = .running → s.cfgr = some c → c.variant = .gshare → s.gt = some gt → s.ghr = some ghr →
    s.pm = some pm → s.mp = some mp →
    pm ≠ 2 ^ s.params.cntW - 1 → ¬ (o = .x ∧ s.params.malformedPolicy = .fault) →
    let i := idxG a c.m1 c.n ghr
    let p := pred (gt.read i)
    exec (.gpu a o) s = .next
      { s with
        pm := some (pm + 1)
        mp := some (if miss p o then mp + 1 else mp)
        gt := some (gt.write i (upd (gt.read i) o))
        ghr := some (if 1 ≤ c.n.toNat then (ghr >>> 1) ||| ((if o = .t then 1 else 0) <<< (c.n.toNat - 1)) else ghr)
        responses := s.responses ++ [.pred p] }

/-- 43_hybrid.md R100 to R107: HPU completes: both sub-predictions from the state before, the chooser's selection, the
update of the selected table alone, the history, the chooser credit. -/
def Obligations.HpuPredictsAndUpdates : Prop :=
  ∀ (s : State) (a : Nat) (o : BranchOutcome) (c : Cfgr) (bt gt ct : Table) (ghr pm mp : Nat),
    s.phase = .running → s.cfgr = some c → c.variant = .hybrid → s.bt = some bt → s.gt = some gt → s.ct = some ct →
    s.ghr = some ghr → s.pm = some pm → s.mp = some mp →
    pm ≠ 2 ^ s.params.cntW - 1 → ¬ (o = .x ∧ s.params.malformedPolicy = .fault) →
    let ib := idxB a c.m2
    let ig := idxG a c.m1 c.n ghr
    let ic := idxC a c.k
    let pb := pred (bt.read ib)
    let pg := pred (gt.read ig)
    let p := if 2 ≤ (ct.read ic).toNat then pg else pb
    exec (.hpu a o) s = .next
      { s with
        pm := some (pm + 1)
        mp := some (if miss p o then mp + 1 else mp)
        bt := some (if 2 ≤ (ct.read ic).toNat then bt else bt.write ib (upd (bt.read ib) o))
        gt := some (if 2 ≤ (ct.read ic).toNat then gt.write ig (upd (gt.read ig) o) else gt)
        ghr := some (if 1 ≤ c.n.toNat then (ghr >>> 1) ||| ((if o = .t then 1 else 0) <<< (c.n.toNat - 1)) else ghr)
        ct := some (ct.write ic (credit (ct.read ic) pb pg o))
        responses := s.responses ++ [.pred p] }

/-- 60_exceptions.md R134 item 3 (and item 1): what BPU, GPU and HPU check, in order, each a sticky fault that changes
nothing but PHASE and FAULT. -/
def Obligations.PredictChecksInOrder : Prop :=
  ∀ (s : State) (a : Nat) (o : BranchOutcome) (v : Variant) (i : Instr),
    (v, i) = (.bimodal, .bpu a o) ∨ (v, i) = (.gshare, .gpu a o) ∨ (v, i) = (.hybrid, .hpu a o) →
    let faulted (code : FaultCode) : Result := .next
      { s with phase := .failed, fault := code, responses := s.responses ++ [.fault code] }
    (s.phase = .failed → exec i s = .next { s with responses := s.responses ++ [.failed s.fault] }) ∧
    (s.phase = .unconfigured → exec i s = faulted .notConfigured) ∧
    (∀ c pm mp, s.phase = .running → s.cfgr = some c → s.pm = some pm → s.mp = some mp →
      (c.variant ≠ v → exec i s = faulted .variantMismatch) ∧
      (c.variant = v → pm = 2 ^ s.params.cntW - 1 → exec i s = faulted .counterOverflow) ∧
      (c.variant = v → pm ≠ 2 ^ s.params.cntW - 1 → o = .x → s.params.malformedPolicy = .fault →
        exec i s = faulted .malformedOutcome))

/-! ### The predict commands: frames -/

/-- R84, R131, R133: what BPU leaves unchanged. Answered PRED, everything but PM, MP and the one cell BT[idx_b(a)]; answered
otherwise, everything but PHASE and FAULT, and in a block already FAILED these too. -/
def Obligations.BpuFrame : Prop :=
  ∀ (s t : State) (a : Nat) (o : BranchOutcome), exec (.bpu a o) s = .next t →
    t.params = s.params ∧ t.pending = s.pending ∧ t.cfgr = s.cfgr ∧ t.gt = s.gt ∧ t.ct = s.ct ∧ t.ghr = s.ghr ∧
    (∃ r, t.responses = s.responses ++ [r]) ∧
    (((∃ p, t.responses = s.responses ++ [.pred p]) ∧ t.phase = s.phase ∧ t.fault = s.fault) ∨
      ((∀ p, t.responses ≠ s.responses ++ [.pred p]) ∧ t.phase = .failed ∧ (s.phase = .failed → t.fault = s.fault) ∧
        t.bt = s.bt ∧ t.pm = s.pm ∧ t.mp = s.mp)) ∧
    (∀ c bt bt', s.cfgr = some c → s.bt = some bt → t.bt = some bt' →
      bt'.fill = bt.fill ∧ ∀ j, j ≠ idxB a c.m2 → bt'.read j = bt.read j) ∧
    (t.bt.isSome = s.bt.isSome)

/-- R95, R131, R133: what GPU leaves unchanged. Answered PRED, everything but PM, MP, GHR and the one cell GT[idx_g(a, GHR)],
GHR as it was before; answered otherwise, everything but PHASE and FAULT, and in a block already FAILED these too. -/
def Obligations.GpuFrame : Prop :=
  ∀ (s t : State) (a : Nat) (o : BranchOutcome), exec (.gpu a o) s = .next t →
    t.params = s.params ∧ t.pending = s.pending ∧ t.cfgr = s.cfgr ∧ t.bt = s.bt ∧ t.ct = s.ct ∧
    (∃ r, t.responses = s.responses ++ [r]) ∧
    (((∃ p, t.responses = s.responses ++ [.pred p]) ∧ t.phase = s.phase ∧ t.fault = s.fault) ∨
      ((∀ p, t.responses ≠ s.responses ++ [.pred p]) ∧ t.phase = .failed ∧ (s.phase = .failed → t.fault = s.fault) ∧
        t.gt = s.gt ∧ t.ghr = s.ghr ∧ t.pm = s.pm ∧ t.mp = s.mp)) ∧
    (∀ c g gt gt', s.cfgr = some c → s.ghr = some g → s.gt = some gt → t.gt = some gt' →
      gt'.fill = gt.fill ∧ ∀ j, j ≠ idxG a c.m1 c.n g → gt'.read j = gt.read j) ∧
    (t.gt.isSome = s.gt.isSome ∧ t.ghr.isSome = s.ghr.isSome)

/-- R107, R131, R133: what HPU leaves unchanged. Answered PRED, everything but PM, MP, GHR and one cell of each table;
answered otherwise, everything but PHASE and FAULT, and in a block already FAILED these too. -/
def Obligations.HpuFrame : Prop :=
  ∀ (s t : State) (a : Nat) (o : BranchOutcome), exec (.hpu a o) s = .next t →
    t.params = s.params ∧ t.pending = s.pending ∧ t.cfgr = s.cfgr ∧
    (∃ r, t.responses = s.responses ++ [r]) ∧
    (((∃ p, t.responses = s.responses ++ [.pred p]) ∧ t.phase = s.phase ∧ t.fault = s.fault) ∨
      ((∀ p, t.responses ≠ s.responses ++ [.pred p]) ∧ t.phase = .failed ∧ (s.phase = .failed → t.fault = s.fault) ∧
        t.bt = s.bt ∧ t.gt = s.gt ∧ t.ct = s.ct ∧ t.ghr = s.ghr ∧ t.pm = s.pm ∧ t.mp = s.mp)) ∧
    (∀ c bt bt', s.cfgr = some c → s.bt = some bt → t.bt = some bt' →
      bt'.fill = bt.fill ∧ ∀ j, j ≠ idxB a c.m2 → bt'.read j = bt.read j) ∧
    (∀ c g gt gt', s.cfgr = some c → s.ghr = some g → s.gt = some gt → t.gt = some gt' →
      gt'.fill = gt.fill ∧ ∀ j, j ≠ idxG a c.m1 c.n g → gt'.read j = gt.read j) ∧
    (∀ c ct ct', s.cfgr = some c → s.ct = some ct → t.ct = some ct' →
      ct'.fill = ct.fill ∧ ∀ j, j ≠ idxC a c.k → ct'.read j = ct.read j) ∧
    (t.bt.isSome = s.bt.isSome ∧ t.gt.isSome = s.gt.isSome ∧ t.ct.isSome = s.ct.isSome ∧
      t.ghr.isSome = s.ghr.isSome)

/-- 43_hybrid.md R103, R108: an HPU moves at most one cell of each table, never cells of BT and GT both, and the chooser
cell only where exactly one of the two sub-predictions is right. -/
def Obligations.HybridTrainsOneTable : Prop :=
  ∀ (s t : State) (a : Nat) (o : BranchOutcome) (c : Cfgr) (bt gt ct bt' gt' ct' : Table) (g : Nat),
    exec (.hpu a o) s = .next t → s.cfgr = some c → s.bt = some bt → s.gt = some gt → s.ct = some ct →
    s.ghr = some g → t.bt = some bt' → t.gt = some gt' → t.ct = some ct' →
    (∀ i j, bt'.read i ≠ bt.read i → gt'.read j = gt.read j) ∧
    (∀ i j, bt'.read i ≠ bt.read i → bt'.read j ≠ bt.read j → i = j) ∧
    (∀ i j, gt'.read i ≠ gt.read i → gt'.read j ≠ gt.read j → i = j) ∧
    (∀ i j, ct'.read i ≠ ct.read i → ct'.read j ≠ ct.read j → i = j) ∧
    (∀ i, ct'.read i ≠ ct.read i →
      agrees (pred (bt.read (idxB a c.m2))) o ≠ agrees (pred (gt.read (idxG a c.m1 c.n g))) o)

/-- R85: "saturation, not wraparound": no step moves a counter of a table that stays in being by more than one, unless it
is the CFG that creates it. -/
def Obligations.CountersMoveByAtMostOne : Prop :=
  ∀ s t : State, step s = .next t → t.responses ≠ s.responses ++ [.ok] →
    ∀ u u' : Table,
      (s.bt = some u ∧ t.bt = some u') ∨ (s.gt = some u ∧ t.gt = some u') ∨ (s.ct = some u ∧ t.ct = some u') →
      ∀ j, (u'.read j).toNat ≤ (u.read j).toNat + 1 ∧ (u.read j).toNat ≤ (u'.read j).toNat + 1

/-- 10_state.md R29, R30: a predict command that completes adds exactly 1 to PM, and to MP 1 on a miss of the prediction it
reports; no other command that finds the block configured writes either. -/
def Obligations.CountersCountPredictions : Prop :=
  (∀ (s t : State) (i : Instr) (p : Prediction), exec i s = .next t → t.responses = s.responses ++ [.pred p] →
    ∃ a o pm mp, (i = .bpu a o ∨ i = .gpu a o ∨ i = .hpu a o) ∧ s.pm = some pm ∧ s.mp = some mp ∧
      t.pm = some (pm + 1) ∧ t.mp = some (if miss p o then mp + 1 else mp)) ∧
  (∀ (s t : State) (i : Instr), exec i s = .next t → (∀ p, t.responses ≠ s.responses ++ [.pred p]) →
    t.responses ≠ s.responses ++ [.ok] → t.pm = s.pm ∧ t.mp = s.mp)

/-! ### History -/

/-- 42_gshare.md R96. -/
def Obligations.HistoryShift : Prop :=
  ∀ (s t : State) (a : Nat) (o : BranchOutcome) (i : Instr) (c : Cfgr) (g : Nat) (p : Prediction),
    (i = .gpu a o ∨ i = .hpu a o) → exec i s = .next t → t.responses = s.responses ++ [.pred p] →
    s.cfgr = some c → 2 ≤ c.n.toNat → s.ghr = some g → g < 2 ^ c.n.toNat →
    ∃ g', t.ghr = some g' ∧ bits g' (c.n.toNat - 2) 0 = bits g (c.n.toNat - 1) 1 ∧
      bits g' (c.n.toNat - 1) (c.n.toNat - 1) = (if o = .t then 1 else 0)

/-- R93: with N = 0 no GPU or HPU moves the history, GHR is 0, and the index is `pcBits(a)`. -/
def Obligations.HistoryOfNoBits : Prop :=
  (∀ (s t : State) (a : Nat) (o : BranchOutcome) (c : Cfgr) (i : Instr), (i = .gpu a o ∨ i = .hpu a o) →
    exec i s = .next t → s.cfgr = some c → c.n.toNat = 0 → t.ghr = s.ghr) ∧
  (∀ (s : State) (c : Cfgr) (g : Nat), s.Inv → s.cfgr = some c → c.n.toNat = 0 → s.ghr = some g → g = 0) ∧
  (∀ (a : Nat) (m1 n : Width) (g : Nat), n.toNat = 0 → idxG a m1 n g = pcBits a m1)

/-- R97: after a run of commands from a just configured block (GHR = 0) that ends in RUNNING, bit N-1-k of GHR is
`taken(o)` of the (k+1)-th most recent GPU or HPU of the run, and 0 if there were fewer. -/
def Obligations.HistoryWindow : Prop :=
  ∀ (run : List Instr) (s t : State) (c : Cfgr), s.phase = .running → s.cfgr = some c → s.ghr = some 0 →
    execAll run s = .next t → t.phase = .running →
    ∃ g, t.ghr = some g ∧ ∀ k, k < c.n.toNat →
      g.testBit (c.n.toNat - 1 - k) = decide ((run.filterMap historyOutcome).reverse[k]? = some .t)

/-- R94, R106 (and R81, R82 for X): under NoOp a malformed outcome moves no counter of any table and not MP; PM counts it;
the history, where there is one of N ≥ 1 bits, shifts in a 0. -/
def Obligations.MalformedOutcomeIsNoOpUpdate : Prop :=
  ∀ (s t : State) (a : Nat) (i : Instr) (p : Prediction), (i = .bpu a .x ∨ i = .gpu a .x ∨ i = .hpu a .x) →
    exec i s = .next t → t.responses = s.responses ++ [.pred p] →
    t.mp = s.mp ∧ t.pm = s.pm.map (· + 1) ∧
    (∀ u u' : Table,
      (s.bt = some u ∧ t.bt = some u') ∨ (s.gt = some u ∧ t.gt = some u') ∨ (s.ct = some u ∧ t.ct = some u') →
      ∀ j, u'.read j = u.read j) ∧
    (∀ c g, (i = .gpu a .x ∨ i = .hpu a .x) → s.cfgr = some c → 1 ≤ c.n.toNat → s.ghr = some g →
      t.ghr = some (g >>> 1))

/-- 42_gshare.md R95, its corner case N = 0: a gshare predictor without history makes, record for record, the predictions
of a bimodal one of the same width, and its table goes through the same contents. -/
def Obligations.GshareWithoutHistoryIsBimodal : Prop :=
  ∀ (records : List (Nat × BranchOutcome)) (b g tb : State) (cb cg : Cfgr),
    b.phase = .running → g.phase = .running → b.params = g.params →
    b.cfgr = some cb → cb.variant = .bimodal → g.cfgr = some cg → cg.variant = .gshare → cg.n.toNat = 0 →
    cb.m2 = cg.m1 → b.bt = g.gt → g.ghr = some 0 → b.pm = g.pm → b.mp = g.mp →
    execAll (records.map fun r => .bpu r.1 r.2) b = .next tb →
    ∃ tg more, execAll (records.map fun r => .gpu r.1 r.2) g = .next tg ∧ tg.phase = tb.phase ∧ tg.gt = tb.bt ∧
      tg.pm = tb.pm ∧ tg.mp = tb.mp ∧ tg.ghr = some 0 ∧ tb.responses = b.responses ++ more ∧
      tg.responses = g.responses ++ more

/-! ### Addresses -/

/-- 20_memory.md R43: the two low address bits are not checked and make no difference. -/
def Obligations.LowAddressBitsIgnored : Prop :=
  ∀ (s : State) (a : Nat) (o : BranchOutcome),
    exec (.bpu a o) s = exec (.bpu (4 * (a / 4)) o) s ∧
    exec (.gpu a o) s = exec (.gpu (4 * (a / 4)) o) s ∧
    exec (.hpu a o) s = exec (.hpu (4 * (a / 4)) o) s

/-- R50: addresses whose indices are equal act alike in every respect. -/
def Obligations.AliasedAddressesActAlike : Prop :=
  ∀ (s : State) (a b : Nat) (o : BranchOutcome) (c : Cfgr), s.cfgr = some c →
    (idxB a c.m2 = idxB b c.m2 → exec (.bpu a o) s = exec (.bpu b o) s) ∧
    ((∀ g, s.ghr = some g → idxG a c.m1 c.n g = idxG b c.m1 c.n g) → exec (.gpu a o) s = exec (.gpu b o) s) ∧
    (idxB a c.m2 = idxB b c.m2 → (∀ g, s.ghr = some g → idxG a c.m1 c.n g = idxG b c.m1 c.n g) →
      idxC a c.k = idxC b c.k → exec (.hpu a o) s = exec (.hpu b o) s)

/-! ### SNAP and RATE -/

/-- 44_snapshot.md R115: SNAP completes in RUNNING with the counters and every table of the variant, each "in index order
0..2^W-1", for hybrid in the order chooser, gshare, bimodal; nothing else changes. -/
def Obligations.SnapReports : Prop :=
  ∀ (s : State) (c : Cfgr) (pm mp : Nat), s.phase = .running → s.cfgr = some c → s.pm = some pm → s.mp = some mp →
    let reports (tables : List (TableName × List Counter)) : Prop :=
      ∃ record, exec .snap s = .next { s with responses := s.responses ++ [.snapshot record] } ∧
        record.predictionsMade = pm ∧ record.mispredictions = mp ∧ record.listing = tables
    (∀ bt, c.variant = .bimodal → s.bt = some bt →
      reports [(.bimodal, (List.range (2 ^ c.m2.toNat)).map bt.read)]) ∧
    (∀ gt, c.variant = .gshare → s.gt = some gt →
      reports [(.gshare, (List.range (2 ^ c.m1.toNat)).map gt.read)]) ∧
    (∀ bt gt ct, c.variant = .hybrid → s.bt = some bt → s.gt = some gt → s.ct = some ct →
      reports [(.chooser, (List.range (2 ^ c.k.toNat)).map ct.read),
        (.gshare, (List.range (2 ^ c.m1.toNat)).map gt.read),
        (.bimodal, (List.range (2 ^ c.m2.toNat)).map bt.read)])

/-- R117: RATE completes in RUNNING once a prediction was made, with the exact rational 100 * MP / PM; nothing else
changes. -/
def Obligations.RateReports : Prop :=
  ∀ (s : State) (pm mp : Nat), s.phase = .running → s.pm = some pm → s.mp = some mp → pm ≠ 0 →
    exec .rate s = .next { s with responses := s.responses ++ [.rate (100 * mp) pm] }

/-- R117: the rate lies between 0 and 100. -/
def Obligations.RateIsAPercentage : Prop :=
  ∀ (s t : State) (num den : Nat), s.Inv → exec .rate s = .next t →
    t.responses = s.responses ++ [.rate num den] → 0 < den ∧ num ≤ 100 * den

/-- R115, R117, R132: SNAP and RATE are pure reads in every phase: whatever they answer, nothing else changes. -/
def Obligations.ReadOutCommandsFrame : Prop :=
  ∀ (s t : State) (i : Instr), (i = .snap ∨ i = .rate) → exec i s = .next t →
    ∃ r, t = { s with responses := s.responses ++ [r] }

/-- R75: SNAP directly after an accepted CFG shows the initial values and no prediction made. -/
def Obligations.SnapshotAfterConfiguration : Prop :=
  ∀ (s t : State) (v : VariantCode) (k m1 n m2 : Width), exec (.cfg v k m1 n m2) s = .next t →
    t.responses = s.responses ++ [.ok] →
    ∃ record, exec .snap t = .next { t with responses := t.responses ++ [.snapshot record] } ∧
      record.predictionsMade = 0 ∧ record.mispredictions = 0 ∧
      (v = .bimodal → record.listing = [(.bimodal, List.replicate (2 ^ m2.toNat) 2)]) ∧
      (v = .gshare → record.listing = [(.gshare, List.replicate (2 ^ m1.toNat) 2)]) ∧
      (v = .hybrid → record.listing =
        [(.chooser, List.replicate (2 ^ k.toNat) 1), (.gshare, List.replicate (2 ^ m1.toNat) 2),
          (.bimodal, List.replicate (2 ^ m2.toNat) 2)])

/-- 70_reset_and_hazards.md R153: a SNAP directly after a BPU reports that command's updates. -/
def Obligations.SnapshotShowsLastUpdate : Prop :=
  ∀ (s t : State) (a : Nat) (o : BranchOutcome) (p : Prediction) (c : Cfgr) (bt : Table) (pm : Nat),
    s.cfgr = some c → s.bt = some bt → s.pm = some pm → exec (.bpu a o) s = .next t →
    t.responses = s.responses ++ [.pred p] →
    ∃ record cells, exec .snap t = .next { t with responses := t.responses ++ [.snapshot record] } ∧
      record.predictionsMade = pm + 1 ∧ record.listing = [(.bimodal, cells)] ∧ cells.length = 2 ^ c.m2.toNat ∧
      cells[idxB a c.m2]? = some (upd (bt.read (idxB a c.m2)) o) ∧
      ∀ j, j < 2 ^ c.m2.toNat → j ≠ idxB a c.m2 → cells[j]? = some (bt.read j)

/-! ### Faults and phases -/

/-- 60_exceptions.md R133. -/
def Obligations.FailedAnswersEveryWord : Prop :=
  (∀ (s : State) (w : Nat) (rest : List HostInput), s.phase = .failed → s.pending = .command w :: rest →
    w < 2 ^ s.params.cmdW →
    step s = .next { s with pending := rest, responses := s.responses ++ [.failed s.fault] }) ∧
  (∀ s t : State, s.phase = .failed → step s = .next t → t.phase ≠ .failed → s.pending = .reset :: t.pending)

/-- R131: a word answered FAULT(k) sets PHASE and FAULT and changes nothing else; k is a sticky code, and the block was not
FAILED before. The faulted state "is final for the run and quiescent": until a reset no step changes the block. -/
def Obligations.StickyFaultEntry : Prop :=
  (∀ (s t : State) (w : Nat) (rest : List HostInput) (k : FaultCode), s.pending = .command w :: rest →
    step s = .next t → t.responses = s.responses ++ [.fault k] →
    t = { s with pending := rest, phase := .failed, fault := k, responses := s.responses ++ [.fault k] } ∧
      k.sticky = true ∧ s.phase ≠ .failed) ∧
  (∀ s t : State, s.phase = .failed → (∀ rest, s.pending ≠ .reset :: rest) → step s = .next t →
    t = { s with pending := t.pending, responses := t.responses })

/-- R132: NOT_CONFIGURED and DIVISION_UNDEFINED of SNAP and RATE; no other command answers ERROR, and an ERROR changes no
state at all. -/
def Obligations.NonStickyErrors : Prop :=
  (∀ (s : State) (i : Instr), (i = .snap ∨ i = .rate) → s.phase = .unconfigured →
    exec i s = .next { s with responses := s.responses ++ [.error .notConfigured] }) ∧
  (∀ (s : State) (mp : Nat), s.phase = .running → s.pm = some 0 → s.mp = some mp →
    exec .rate s = .next { s with responses := s.responses ++ [.error .divisionUndefined] }) ∧
  (∀ (s t : State) (i : Instr) (k : FaultCode), exec i s = .next t → t.responses = s.responses ++ [.error k] →
    (i = .snap ∨ i = .rate) ∧ (k = .notConfigured ∨ k = .divisionUndefined) ∧
      t = { s with responses := s.responses ++ [.error k] })

/-- 10_state.md R31, R32: the transitions of PHASE; FAULT is written only with the transition to FAILED, with the code the
response reports, and cleared only by hardware reset; in every other phase it is NONE. -/
def Obligations.PhaseAndFaultTransitions : Prop :=
  (∀ s : State, s.Inv → s.phase ≠ .failed → s.fault = .noFault) ∧
  ∀ s t : State, step s = .next t →
    (t.phase = s.phase ∧ t.fault = s.fault) ∨
    (s.phase = .unconfigured ∧ t.phase = .running ∧ t.fault = s.fault ∧ t.responses = s.responses ++ [.ok]) ∨
    (s.phase ≠ .failed ∧ t.phase = .failed ∧ t.responses = s.responses ++ [.fault t.fault]) ∨
    (s.pending = .reset :: t.pending ∧ t.phase = .unconfigured ∧ t.fault = .noFault)

/-- R22: CFGR is written only by a successful CFG, and ceases to exist only by hardware reset. -/
def Obligations.ConfigurationIsImmutable : Prop :=
  ∀ s t : State, step s = .next t → t.cfgr ≠ s.cfgr →
    (s.pending = .reset :: t.pending ∧ t.cfgr = none) ∨
    (∃ w v k m1 n m2, s.pending = .command w :: t.pending ∧ decode s.params w = .command (.cfg v k m1 n m2) ∧
      s.phase = .unconfigured ∧ t.responses = s.responses ++ [.ok])

/-! ### The assembler -/

/-- 30_encoding.md R66: PU is the predict command of the variant of the last CFG before it; with none before it the program
does not assemble. -/
def Obligations.PuExpandsToLastVariant : Prop :=
  (∀ (p : Params) (before between after : List AsmLine) (v : Variant) (fields : List (AsmField × Nat)) (a : Nat)
      (o : BranchOutcome), (∀ line ∈ between, ∀ v' f', line ≠ .cfg v' f') →
    assemble p (before ++ .cfg v fields :: between ++ .pu a o :: after) =
      assemble p (before ++ .cfg v fields :: between ++
        (match v with
          | .bimodal => AsmLine.bpu a o
          | .gshare => AsmLine.gpu a o
          | .hybrid => AsmLine.hpu a o) :: after)) ∧
  (∀ (p : Params) (before after : List AsmLine) (a : Nat) (o : BranchOutcome),
    (∀ line ∈ before, ∀ v' f', line ≠ .cfg v' f') → ∀ is, assemble p (before ++ .pu a o :: after) ≠ .ok is)

/-- R51, R56, R58, R65: what assembles decodes: each word of an assembled program is read back as its command. That too
large numbers do not assemble is the model's choice (log 9). -/
def Obligations.AssembledProgramDecodes : Prop :=
  ∀ (p : Params) (program : List AsmLine) (is : List Instr), p.wf = true → assemble p program = .ok is →
    ∀ i ∈ is, i.wellFormed p = true ∧ decode p (encode i) = .command i
end

