-- ==== Sys2Proof/Laws/State.lean ====
section
/-! SUPPORT. What each update of the state does to each of its fields, one lemma a field, all true by definition, so that no
proof unfolds a record update. -/

namespace Sys2Proof.Machine

@[simp] theorem State.respond_params (s : State) (r : Response) : (s.respond r).params = s.params := rfl
@[simp] theorem State.respond_phase (s : State) (r : Response) : (s.respond r).phase = s.phase := rfl
@[simp] theorem State.respond_fault (s : State) (r : Response) : (s.respond r).fault = s.fault := rfl
@[simp] theorem State.respond_cfgr (s : State) (r : Response) : (s.respond r).cfgr = s.cfgr := rfl
@[simp] theorem State.respond_bt (s : State) (r : Response) : (s.respond r).bt = s.bt := rfl
@[simp] theorem State.respond_gt (s : State) (r : Response) : (s.respond r).gt = s.gt := rfl
@[simp] theorem State.respond_ct (s : State) (r : Response) : (s.respond r).ct = s.ct := rfl
@[simp] theorem State.respond_ghr (s : State) (r : Response) : (s.respond r).ghr = s.ghr := rfl
@[simp] theorem State.respond_pm (s : State) (r : Response) : (s.respond r).pm = s.pm := rfl
@[simp] theorem State.respond_mp (s : State) (r : Response) : (s.respond r).mp = s.mp := rfl
@[simp] theorem State.respond_pending (s : State) (r : Response) : (s.respond r).pending = s.pending := rfl
@[simp] theorem State.respond_responses (s : State) (r : Response) : (s.respond r).responses = s.responses ++ [r] := rfl

@[simp] theorem State.raise_params (s : State) (k : FaultCode) : (s.raise k).params = s.params := rfl
@[simp] theorem State.raise_phase (s : State) (k : FaultCode) : (s.raise k).phase = .failed := rfl
@[simp] theorem State.raise_fault (s : State) (k : FaultCode) : (s.raise k).fault = k := rfl
@[simp] theorem State.raise_cfgr (s : State) (k : FaultCode) : (s.raise k).cfgr = s.cfgr := rfl
@[simp] theorem State.raise_bt (s : State) (k : FaultCode) : (s.raise k).bt = s.bt := rfl
@[simp] theorem State.raise_gt (s : State) (k : FaultCode) : (s.raise k).gt = s.gt := rfl
@[simp] theorem State.raise_ct (s : State) (k : FaultCode) : (s.raise k).ct = s.ct := rfl
@[simp] theorem State.raise_ghr (s : State) (k : FaultCode) : (s.raise k).ghr = s.ghr := rfl
@[simp] theorem State.raise_pm (s : State) (k : FaultCode) : (s.raise k).pm = s.pm := rfl
@[simp] theorem State.raise_mp (s : State) (k : FaultCode) : (s.raise k).mp = s.mp := rfl
@[simp] theorem State.raise_pending (s : State) (k : FaultCode) : (s.raise k).pending = s.pending := rfl
@[simp] theorem State.raise_responses (s : State) (k : FaultCode) :
    (s.raise k).responses = s.responses ++ [.fault k] := rfl

@[simp] theorem State.error_params (s : State) (k : FaultCode) : (s.error k).params = s.params := rfl
@[simp] theorem State.error_phase (s : State) (k : FaultCode) : (s.error k).phase = s.phase := rfl
@[simp] theorem State.error_fault (s : State) (k : FaultCode) : (s.error k).fault = s.fault := rfl
@[simp] theorem State.error_cfgr (s : State) (k : FaultCode) : (s.error k).cfgr = s.cfgr := rfl
@[simp] theorem State.error_bt (s : State) (k : FaultCode) : (s.error k).bt = s.bt := rfl
@[simp] theorem State.error_gt (s : State) (k : FaultCode) : (s.error k).gt = s.gt := rfl
@[simp] theorem State.error_ct (s : State) (k : FaultCode) : (s.error k).ct = s.ct := rfl
@[simp] theorem State.error_ghr (s : State) (k : FaultCode) : (s.error k).ghr = s.ghr := rfl
@[simp] theorem State.error_pm (s : State) (k : FaultCode) : (s.error k).pm = s.pm := rfl
@[simp] theorem State.error_mp (s : State) (k : FaultCode) : (s.error k).mp = s.mp := rfl
@[simp] theorem State.error_pending (s : State) (k : FaultCode) : (s.error k).pending = s.pending := rfl
@[simp] theorem State.error_responses (s : State) (k : FaultCode) :
    (s.error k).responses = s.responses ++ [.error k] := rfl

@[simp] theorem State.answerFailed_params (s : State) : s.answerFailed.params = s.params := rfl
@[simp] theorem State.answerFailed_phase (s : State) : s.answerFailed.phase = s.phase := rfl
@[simp] theorem State.answerFailed_fault (s : State) : s.answerFailed.fault = s.fault := rfl
@[simp] theorem State.answerFailed_cfgr (s : State) : s.answerFailed.cfgr = s.cfgr := rfl
@[simp] theorem State.answerFailed_bt (s : State) : s.answerFailed.bt = s.bt := rfl
@[simp] theorem State.answerFailed_gt (s : State) : s.answerFailed.gt = s.gt := rfl
@[simp] theorem State.answerFailed_ct (s : State) : s.answerFailed.ct = s.ct := rfl
@[simp] theorem State.answerFailed_ghr (s : State) : s.answerFailed.ghr = s.ghr := rfl
@[simp] theorem State.answerFailed_pm (s : State) : s.answerFailed.pm = s.pm := rfl
@[simp] theorem State.answerFailed_mp (s : State) : s.answerFailed.mp = s.mp := rfl
@[simp] theorem State.answerFailed_pending (s : State) : s.answerFailed.pending = s.pending := rfl
@[simp] theorem State.answerFailed_responses (s : State) :
    s.answerFailed.responses = s.responses ++ [.failed s.fault] := rfl

@[simp] theorem State.hardwareReset_params (s : State) : s.hardwareReset.params = s.params := rfl
@[simp] theorem State.hardwareReset_phase (s : State) : s.hardwareReset.phase = .unconfigured := rfl
@[simp] theorem State.hardwareReset_fault (s : State) : s.hardwareReset.fault = .noFault := rfl
@[simp] theorem State.hardwareReset_cfgr (s : State) : s.hardwareReset.cfgr = none := rfl
@[simp] theorem State.hardwareReset_bt (s : State) : s.hardwareReset.bt = none := rfl
@[simp] theorem State.hardwareReset_gt (s : State) : s.hardwareReset.gt = none := rfl
@[simp] theorem State.hardwareReset_ct (s : State) : s.hardwareReset.ct = none := rfl
@[simp] theorem State.hardwareReset_ghr (s : State) : s.hardwareReset.ghr = none := rfl
@[simp] theorem State.hardwareReset_pm (s : State) : s.hardwareReset.pm = none := rfl
@[simp] theorem State.hardwareReset_mp (s : State) : s.hardwareReset.mp = none := rfl
@[simp] theorem State.hardwareReset_pending (s : State) : s.hardwareReset.pending = s.pending := rfl
@[simp] theorem State.hardwareReset_responses (s : State) : s.hardwareReset.responses = s.responses := rfl

@[simp] theorem State.construct_params (s : State) (v : Variant) (k m1 n m2 : Width) :
    (s.construct v k m1 n m2).params = s.params := rfl
@[simp] theorem State.construct_phase (s : State) (v : Variant) (k m1 n m2 : Width) :
    (s.construct v k m1 n m2).phase = .running := rfl
@[simp] theorem State.construct_fault (s : State) (v : Variant) (k m1 n m2 : Width) :
    (s.construct v k m1 n m2).fault = s.fault := rfl
@[simp] theorem State.construct_cfgr (s : State) (v : Variant) (k m1 n m2 : Width) :
    (s.construct v k m1 n m2).cfgr = some (acceptedCfgr v k m1 n m2) := rfl
@[simp] theorem State.construct_bt (s : State) (v : Variant) (k m1 n m2 : Width) :
    (s.construct v k m1 n m2).bt = if v.hasBT then some (.filled 2) else none := rfl
@[simp] theorem State.construct_gt (s : State) (v : Variant) (k m1 n m2 : Width) :
    (s.construct v k m1 n m2).gt = if v.hasGT then some (.filled 2) else none := rfl
@[simp] theorem State.construct_ct (s : State) (v : Variant) (k m1 n m2 : Width) :
    (s.construct v k m1 n m2).ct = if v.hasCT then some (.filled 1) else none := rfl
@[simp] theorem State.construct_ghr (s : State) (v : Variant) (k m1 n m2 : Width) :
    (s.construct v k m1 n m2).ghr = if v.hasGT then some 0 else none := rfl
@[simp] theorem State.construct_pm (s : State) (v : Variant) (k m1 n m2 : Width) :
    (s.construct v k m1 n m2).pm = some 0 := rfl
@[simp] theorem State.construct_mp (s : State) (v : Variant) (k m1 n m2 : Width) :
    (s.construct v k m1 n m2).mp = some 0 := rfl
@[simp] theorem State.construct_pending (s : State) (v : Variant) (k m1 n m2 : Width) :
    (s.construct v k m1 n m2).pending = s.pending := rfl
@[simp] theorem State.construct_responses (s : State) (v : Variant) (k m1 n m2 : Width) :
    (s.construct v k m1 n m2).responses = s.responses := rfl

@[simp] theorem State.withFetchWord_params (s : State) (nbits w : Nat) : (s.withFetchWord nbits w).params = s.params := rfl
@[simp] theorem State.withFetchWord_phase (s : State) (nbits w : Nat) : (s.withFetchWord nbits w).phase = s.phase := rfl
@[simp] theorem State.withFetchWord_fault (s : State) (nbits w : Nat) : (s.withFetchWord nbits w).fault = s.fault := rfl
@[simp] theorem State.withFetchWord_cfgr (s : State) (nbits w : Nat) : (s.withFetchWord nbits w).cfgr = s.cfgr := rfl
@[simp] theorem State.withFetchWord_bt (s : State) (nbits w : Nat) : (s.withFetchWord nbits w).bt = s.bt := rfl
@[simp] theorem State.withFetchWord_gt (s : State) (nbits w : Nat) : (s.withFetchWord nbits w).gt = s.gt := rfl
@[simp] theorem State.withFetchWord_ct (s : State) (nbits w : Nat) : (s.withFetchWord nbits w).ct = s.ct := rfl
@[simp] theorem State.withFetchWord_ghr (s : State) (nbits w : Nat) : (s.withFetchWord nbits w).ghr = s.ghr := rfl
@[simp] theorem State.withFetchWord_pm (s : State) (nbits w : Nat) : (s.withFetchWord nbits w).pm = s.pm := rfl
@[simp] theorem State.withFetchWord_mp (s : State) (nbits w : Nat) : (s.withFetchWord nbits w).mp = s.mp := rfl
@[simp] theorem State.withFetchWord_pending (s : State) (nbits w : Nat) :
    (s.withFetchWord nbits w).pending = .command (w % 2 ^ nbits) :: s.pending := rfl
@[simp] theorem State.withFetchWord_responses (s : State) (nbits w : Nat) : (s.withFetchWord nbits w).responses = s.responses := rfl

end Sys2Proof.Machine
end

