-- ==== Sys2Proof/Laws/Exec.lean ====
section
/-! SUPPORT. Everything a command, and a step, can do, said once: if it answers a next state, then one of these cases holds.
Proofs about all commands cite these lemmas and do not unfold the meanings. -/

namespace Sys2Proof.Machine

/-- The ends common to all commands that can fault: a FAILED block answers, or a sticky fault is taken. -/
def StopsShort (s t : State) : Prop :=
  (s.phase = .failed ∧ t = s.answerFailed) ∨ (s.phase ≠ .failed ∧ ∃ k, k.sticky = true ∧ t = s.raise k)

/-- What a predict command that gets past its checks has found. -/
structure Admitted (v : Variant) (o : BranchOutcome) (s : State) (c : Cfgr) (pm mp : Nat) : Prop where
  running : s.phase = .running
  hasCfgr : s.cfgr = some c
  hasPm : s.pm = some pm
  hasMp : s.mp = some mp
  variant : c.variant = v
  notFull : pm ≠ 2 ^ s.params.cntW - 1
  tolerated : ¬ (o = .x ∧ s.params.malformedPolicy = .fault)

/-- All that the checks of a predict command can do. -/
theorem predictWith_next {v : Variant} {o : BranchOutcome} {s t : State} {body : Cfgr → Nat → Nat → Result}
    (h : predictWith v o s body = .next t) :
    StopsShort s t ∨ ∃ c pm mp, Admitted v o s c pm mp ∧ body c pm mp = .next t := by
  unfold predictWith at h
  split at h
  · rename_i hp
    cases h
    exact .inl (.inl ⟨hp, rfl⟩)
  · rename_i hp
    cases h
    exact .inl (.inr ⟨by simp [hp], _, rfl, rfl⟩)
  · rename_i hp
    split at h
    · rename_i c pm mp hc hpm hmp
      split at h
      · cases h
        exact .inl (.inr ⟨by simp [hp], _, rfl, rfl⟩)
      · rename_i hv
        split at h
        · cases h
          exact .inl (.inr ⟨by simp [hp], _, rfl, rfl⟩)
        · rename_i hfull
          split at h
          · cases h
            exact .inl (.inr ⟨by simp [hp], _, rfl, rfl⟩)
          · rename_i htol
            exact .inr ⟨c, pm, mp, ⟨hp, hc, hpm, hmp, not_not.1 hv, hfull, htol⟩, h⟩
    · cases h

/-- A predict command that gets past its checks runs its body. -/
theorem predictWith_admitted {v : Variant} {o : BranchOutcome} {s : State} {c : Cfgr} {pm mp : Nat}
    (h : Admitted v o s c pm mp) (body : Cfgr → Nat → Nat → Result) : predictWith v o s body = body c pm mp := by
  simp [predictWith, h.running, h.hasCfgr, h.hasPm, h.hasMp, h.variant, h.notFull, h.tolerated]

/-- All that BPU can do. -/
theorem execBpu_next {a : Nat} {o : BranchOutcome} {s t : State} (h : execBpu a o s = .next t) :
    StopsShort s t ∨ ∃ c pm mp bt, Admitted .bimodal o s c pm mp ∧ s.bt = some bt ∧
      t = State.respond
        { s with
          pm := some (pm + 1)
          mp := some (countMiss mp (pred (bt.read (idxB a c.m2))) o)
          bt := some (bt.write (idxB a c.m2) (upd (bt.read (idxB a c.m2)) o)) }
        (.pred (pred (bt.read (idxB a c.m2)))) := by
  refine (predictWith_next h).imp id fun ⟨c, pm, mp, hadm, hb⟩ => ?_
  split at hb
  · rename_i bt hbt
    cases hb
    exact ⟨c, pm, mp, bt, hadm, hbt, rfl⟩
  · cases hb

/-- All that GPU can do. -/
theorem execGpu_next {a : Nat} {o : BranchOutcome} {s t : State} (h : execGpu a o s = .next t) :
    StopsShort s t ∨ ∃ c pm mp gt g, Admitted .gshare o s c pm mp ∧ s.gt = some gt ∧ s.ghr = some g ∧
      t = State.respond
        { s with
          pm := some (pm + 1)
          mp := some (countMiss mp (pred (gt.read (idxG a c.m1 c.n g))) o)
          gt := some (gt.write (idxG a c.m1 c.n g) (upd (gt.read (idxG a c.m1 c.n g)) o))
          ghr := some (historyNext c.n g o) }
        (.pred (pred (gt.read (idxG a c.m1 c.n g)))) := by
  refine (predictWith_next h).imp id fun ⟨c, pm, mp, hadm, hb⟩ => ?_
  split at hb
  · rename_i gt g hgt hg
    cases hb
    exact ⟨c, pm, mp, gt, g, hadm, hgt, hg, rfl⟩
  · cases hb

/-- All that HPU can do. -/
theorem execHpu_next {a : Nat} {o : BranchOutcome} {s t : State} (h : execHpu a o s = .next t) :
    StopsShort s t ∨ ∃ c pm mp bt gt ct g p, Admitted .hybrid o s c pm mp ∧ s.bt = some bt ∧ s.gt = some gt ∧
      s.ct = some ct ∧ s.ghr = some g ∧
      p = (if selectsGshare (ct.read (idxC a c.k)) then pred (gt.read (idxG a c.m1 c.n g))
        else pred (bt.read (idxB a c.m2))) ∧
      t = State.respond
        { s with
          pm := some (pm + 1)
          mp := some (countMiss mp p o)
          bt := some (if selectsGshare (ct.read (idxC a c.k)) then bt
            else bt.write (idxB a c.m2) (upd (bt.read (idxB a c.m2)) o))
          gt := some (if selectsGshare (ct.read (idxC a c.k)) then
            gt.write (idxG a c.m1 c.n g) (upd (gt.read (idxG a c.m1 c.n g)) o) else gt)
          ghr := some (historyNext c.n g o)
          ct := some (ct.write (idxC a c.k) (credit (ct.read (idxC a c.k)) (pred (bt.read (idxB a c.m2)))
            (pred (gt.read (idxG a c.m1 c.n g))) o)) }
        (.pred p) := by
  refine (predictWith_next h).imp id fun ⟨c, pm, mp, hadm, hb⟩ => ?_
  split at hb
  · rename_i bt gt ct g hbt hgt hct hg
    cases hb
    exact ⟨c, pm, mp, bt, gt, ct, g, _, hadm, hbt, hgt, hct, hg, rfl, rfl⟩
  · cases hb

theorem cfgRefusal_sticky {maxW : Nat} {v : Variant} {k m1 n m2 : Width} {code : FaultCode}
    (h : cfgRefusal maxW v k m1 n m2 = some code) : code.sticky = true := by
  unfold cfgRefusal at h
  split at h
  · cases h
    rfl
  · split at h
    · cases h
      rfl
    · cases h

/-- All that CFG can do. -/
theorem execCfg_next {v : VariantCode} {k m1 n m2 : Width} {s t : State} (h : execCfg v k m1 n m2 s = .next t) :
    StopsShort s t ∨ ∃ var, s.phase = .unconfigured ∧ recognisedVariant v = some var ∧
      cfgRefusal s.params.maxW var k m1 n m2 = none ∧ t = (s.construct var k m1 n m2).respond .ok := by
  unfold execCfg at h
  split at h
  · rename_i hp
    cases h
    exact .inl (.inl ⟨hp, rfl⟩)
  · rename_i hp
    cases h
    exact .inl (.inr ⟨by simp [hp], _, rfl, rfl⟩)
  · rename_i hp
    split at h
    · cases h
      exact .inl (.inr ⟨by simp [hp], _, rfl, rfl⟩)
    · rename_i var hv
      split at h
      · rename_i code hcode
        cases h
        exact .inl (.inr ⟨by simp [hp], code, cfgRefusal_sticky hcode, rfl⟩)
      · rename_i hok
        cases h
        exact .inr ⟨var, hp, hv, hok, rfl⟩

/-- The responses of SNAP and RATE: FAILED, an ERROR, or the report. -/
def ReadOutResponse (s : State) (r : Response) : Prop :=
  (s.phase = .failed ∧ r = .failed s.fault) ∨
  (s.phase = .unconfigured ∧ r = .error .notConfigured) ∨
  (s.phase = .running ∧ s.pm = some 0 ∧ r = .error .divisionUndefined) ∨
  (∃ pm mp, s.phase = .running ∧ s.pm = some pm ∧ s.mp = some mp ∧
    ((∃ c tables, s.cfgr = some c ∧ snapshotTables c s = some tables ∧ r = .snapshot ⟨pm, mp, tables⟩) ∨
      (pm ≠ 0 ∧ r = .rate (100 * mp) pm)))

/-- All that SNAP can do: respond. -/
theorem execSnap_next {s t : State} (h : execSnap s = .next t) : ∃ r, ReadOutResponse s r ∧ t = s.respond r := by
  unfold execSnap at h
  split at h
  · rename_i hp
    cases h
    exact ⟨_, .inl ⟨hp, rfl⟩, rfl⟩
  · rename_i hp
    cases h
    exact ⟨_, .inr (.inl ⟨hp, rfl⟩), rfl⟩
  · rename_i hp
    split at h
    · rename_i c pm mp hc hpm hmp
      split at h
      · rename_i tables ht
        cases h
        exact ⟨_, .inr (.inr (.inr ⟨pm, mp, hp, hpm, hmp, .inl ⟨c, tables, hc, ht, rfl⟩⟩)), rfl⟩
      · cases h
    · cases h

/-- All that RATE can do: respond. -/
theorem execRate_next {s t : State} (h : execRate s = .next t) : ∃ r, ReadOutResponse s r ∧ t = s.respond r := by
  unfold execRate at h
  split at h
  · rename_i hp
    cases h
    exact ⟨_, .inl ⟨hp, rfl⟩, rfl⟩
  · rename_i hp
    cases h
    exact ⟨_, .inr (.inl ⟨hp, rfl⟩), rfl⟩
  · rename_i hp
    split at h
    · rename_i pm mp hpm hmp
      split at h
      · rename_i h0
        cases h
        exact ⟨_, .inr (.inr (.inl ⟨hp, h0 ▸ hpm, rfl⟩)), rfl⟩
      · rename_i h0
        cases h
        exact ⟨_, .inr (.inr (.inr ⟨pm, mp, hp, hpm, hmp, .inr ⟨h0, rfl⟩⟩)), rfl⟩
    · cases h

/-- How any command ends: exactly one response more, parameters and pending inputs as they were, and either PHASE, FAULT and
CFGR as they were, or a sticky fault taken, or an accepted CFG. -/
def Ends (i : Instr) (s t : State) : Prop :=
  ∃ r, t.responses = s.responses ++ [r] ∧ t.pending = s.pending ∧ t.params = s.params ∧
    ((t.phase = s.phase ∧ t.fault = s.fault ∧ t.cfgr = s.cfgr ∧ (∀ k, r ≠ .fault k) ∧ r ≠ .ok) ∨
      (s.phase ≠ .failed ∧ ∃ k, k.sticky = true ∧ t = s.raise k ∧ r = .fault k) ∨
      (s.phase = .unconfigured ∧ t.phase = .running ∧ t.fault = s.fault ∧ r = .ok ∧
        ∃ v k m1 n m2, i = .cfg v k m1 n m2))

theorem StopsShort.ends {i : Instr} {s t : State} (h : StopsShort s t) : Ends i s t := by
  rcases h with ⟨_, rfl⟩ | ⟨hp, k, hk, rfl⟩
  · exact ⟨.failed s.fault, by simp⟩
  · exact ⟨.fault k, by simp [hp, hk]⟩

theorem ReadOutResponse.ends {i : Instr} {s : State} {r : Response} (h : ReadOutResponse s r) : Ends i s (s.respond r) := by
  refine ⟨r, rfl, rfl, rfl, .inl ⟨rfl, rfl, rfl, ?_⟩⟩
  rcases h with ⟨_, rfl⟩ | ⟨_, rfl⟩ | ⟨_, _, rfl⟩ | ⟨_, _, _, _, _, ⟨_, _, _, _, rfl⟩ | ⟨_, rfl⟩⟩ <;> simp

/-- How every command ends. -/
theorem exec_ends {i : Instr} {s t : State} (h : exec i s = .next t) : Ends i s t := by
  cases i with
  | cfg v k m1 n m2 =>
    rcases execCfg_next h with h | ⟨_, hp, _, _, rfl⟩
    · exact h.ends
    · exact ⟨.ok, by simp [hp]⟩
  | bpu a o =>
    rcases execBpu_next h with h | ⟨_, _, _, _, _, _, rfl⟩
    · exact h.ends
    · exact ⟨_, rfl, rfl, rfl, .inl ⟨rfl, rfl, rfl, by simp, by simp⟩⟩
  | gpu a o =>
    rcases execGpu_next h with h | ⟨_, _, _, _, _, _, _, _, rfl⟩
    · exact h.ends
    · exact ⟨_, rfl, rfl, rfl, .inl ⟨rfl, rfl, rfl, by simp, by simp⟩⟩
  | hpu a o =>
    rcases execHpu_next h with h | ⟨_, _, _, _, _, _, _, _, _, _, _, _, _, _, rfl⟩
    · exact h.ends
    · exact ⟨_, rfl, rfl, rfl, .inl ⟨rfl, rfl, rfl, by simp, by simp⟩⟩
  | snap =>
    obtain ⟨_, hr, rfl⟩ := execSnap_next h
    exact hr.ends
  | rate =>
    obtain ⟨_, hr, rfl⟩ := execRate_next h
    exact hr.ends

theorem illegalWord_stopsShort (s : State) : StopsShort s (illegalWord s) := by
  unfold illegalWord
  split
  · rename_i hp
    exact .inl ⟨hp, rfl⟩
  · rename_i hp
    exact .inr ⟨by simp [hp], _, rfl, rfl⟩
  · rename_i hp
    exact .inr ⟨by simp [hp], _, rfl, rfl⟩

/-- All that a step can do. -/
theorem step_next {s t : State} (h : step s = .next t) :
    (s.pending = [] ∧ t = s) ∨
    (∃ rest, s.pending = .reset :: rest ∧ t = State.hardwareReset { s with pending := rest }) ∨
    (∃ w rest, s.pending = .command w :: rest ∧
      ((∃ i, decode s.params w = .command i ∧ exec i { s with pending := rest } = .next t) ∨
        (∃ why, decode s.params w = .illegal why ∧ t = illegalWord { s with pending := rest }))) := by
  unfold step at h
  split at h
  · rename_i hp
    cases h
    exact .inl ⟨hp, rfl⟩
  · rename_i rest hp
    cases h
    exact .inr (.inl ⟨rest, hp, rfl⟩)
  · rename_i w rest hp
    refine .inr (.inr ⟨w, rest, hp, ?_⟩)
    simp only [runWord] at h
    split at h
    · rename_i i hi
      exact .inl ⟨i, hi, h⟩
    · rename_i why hw
      cases h
      exact .inr ⟨why, hw, rfl⟩
    · cases h

end Sys2Proof.Machine
end

