-- ==== Sys2Proof/Laws/Operands.lean ====
section
/-! SUPPORT. What the index, history and counter functions give (spec/41_bimodal.md R81, R83, spec/42_gshare.md R91 to R94,
spec/43_hybrid.md R101, R105). -/

namespace Sys2Proof.Machine

theorem wordIndex_lt (a : Nat) (w : Nat) : wordIndex a w < 2 ^ w := Nat.mod_lt _ (Nat.two_pow_pos w)

theorem idxB_lt (a : Nat) (m2 : Width) : idxB a m2 < 2 ^ m2.toNat := wordIndex_lt a _

theorem pcBits_lt (a : Nat) (m1 : Width) : pcBits a m1 < 2 ^ m1.toNat := wordIndex_lt a _

theorem idxC_lt (a : Nat) (k : Width) : idxC a k < 2 ^ k.toNat := wordIndex_lt a _

/-- An index sees of its address the word address alone. -/
theorem wordIndex_congr {a b : Nat} (h : a >>> 2 = b >>> 2) (w : Nat) : wordIndex a w = wordIndex b w := by
  simp [wordIndex, h]

theorem taken_le_one (o : BranchOutcome) : taken o ≤ 1 := by cases o <;> decide

/-- The history stays within its N bits. -/
theorem historyNext_lt {n : Width} {g : Nat} (o : BranchOutcome) (h : g < 2 ^ n.toNat) :
    historyNext n g o < 2 ^ n.toNat := by
  unfold historyNext
  split
  · exact h
  · rename_i hn
    have hsplit : 2 ^ n.toNat = 2 * 2 ^ (n.toNat - 1) := by
      rw [← Nat.pow_succ']
      congr 1
      omega
    apply Nat.or_lt_two_pow
    · rw [Nat.shiftRight_eq_div_pow]
      omega
    · rw [Nat.shiftLeft_eq]
      have := Nat.mul_le_mul_right (2 ^ (n.toNat - 1)) (taken_le_one o)
      have := Nat.two_pow_pos (n.toNat - 1)
      omega

/-- No update moves a counter by more than one. -/
theorem upd_near (c : Counter) (o : BranchOutcome) :
    (upd c o).toNat ≤ c.toNat + 1 ∧ c.toNat ≤ (upd c o).toNat + 1 := by
  revert c
  cases o <;> decide

theorem credit_near (c : Counter) (pb pg : Prediction) (o : BranchOutcome) :
    (credit c pb pg o).toNat ≤ c.toNat + 1 ∧ c.toNat ≤ (credit c pb pg o).toNat + 1 := by
  revert c
  cases pb <;> cases pg <;> cases o <;> decide

@[simp] theorem upd_malformed (c : Counter) : upd c .x = c := rfl

@[simp] theorem credit_malformed (c : Counter) (pb pg : Prediction) : credit c pb pg .x = c := rfl

/-- MP moves by at most one. -/
theorem countMiss_le (mp : Nat) (p : Prediction) (o : BranchOutcome) :
    mp ≤ countMiss mp p o ∧ countMiss mp p o ≤ mp + 1 := by
  unfold countMiss
  split <;> omega

end Sys2Proof.Machine
end

