-- ==== Sys2Proof/Laws/PerInstr.lean ====
section
/-! SUPPORT. Facts about every command as syntax, one lemma a constructor. -/

namespace Sys2Proof.Laws.OpcodeField

/-- The word of a command carries its opcode in [3:0] and 0 in [7:6] (spec/30_encoding.md R53, R54). -/
def Statement (i : Instr) : Prop := bits (encode i) 3 0 = i.opcode ∧ bits (encode i) 7 6 = 0

theorem cfg (v : VariantCode) (k m1 n m2 : Width) : Statement (.cfg v k m1 n m2) := by
  have hv : v.code < 4 := by cases v <;> decide
  simp only [Statement, bits, encode, Instr.opcode, Nat.shiftRight_eq_div_pow]
  constructor <;> omega

theorem predict (op : Nat) (a : Nat) (o : BranchOutcome) (h : op < 16) :
    bits (encodePredict op a o) 3 0 = op ∧ bits (encodePredict op a o) 7 6 = 0 := by
  have ho : o.code < 3 := by cases o <;> decide
  simp only [bits, encodePredict, Nat.shiftRight_eq_div_pow]
  constructor <;> omega

theorem bpu (a : Nat) (o : BranchOutcome) : Statement (.bpu a o) := predict 2 a o (by decide)

theorem gpu (a : Nat) (o : BranchOutcome) : Statement (.gpu a o) := predict 3 a o (by decide)

theorem hpu (a : Nat) (o : BranchOutcome) : Statement (.hpu a o) := predict 4 a o (by decide)

theorem snap : Statement .snap := ⟨by decide, by decide⟩

theorem rate : Statement .rate := ⟨by decide, by decide⟩

end Sys2Proof.Laws.OpcodeField
end

