-- ==== Sys2Proof/Laws/Table.lean ====
section
/-! SUPPORT. The laws of a counter table: what a read gives after a write, and that every operation keeps the canonical form
(spec/20_memory.md R41; log 6). -/

namespace Sys2Proof.Machine

@[simp] theorem Table.filled_fill (v : Counter) : (Table.filled v).fill = v := rfl

@[simp] theorem Table.read_filled (v : Counter) (i : Nat) : (Table.filled v).read i = v := rfl

@[simp] theorem Table.wf_filled (v : Counter) (w : Nat) : (Table.filled v).wf w = true := rfl

@[simp] theorem Table.write_fill (t : Table) (i : Nat) (v : Counter) : (t.write i v).fill = t.fill := by
  unfold Table.write
  split <;> rfl

theorem lookupCell_insertCell (i j : Nat) (v : Counter) (cells : List (Nat × Counter)) :
    lookupCell j (insertCell i v cells) = if j = i then some v else lookupCell j cells := by
  induction cells with
  | nil => simp [insertCell, lookupCell, eq_comm]
  | cons c rest ih =>
    obtain ⟨k, u⟩ := c
    simp only [insertCell]
    split
    · simp [lookupCell, eq_comm]
    · split
      · rename_i h
        subst h
        by_cases h : j = i
        · simp [lookupCell, h]
        · simp [lookupCell, h, Ne.symm h]
      · rename_i h₁ h₂
        by_cases h : k = j
        · subst h
          simp [lookupCell, Ne.symm h₂]
        · simp [lookupCell, h, ih]

theorem lookupCell_filter (i j : Nat) (cells : List (Nat × Counter)) :
    lookupCell j (cells.filter fun c => decide (c.1 ≠ i)) = if j = i then none else lookupCell j cells := by
  induction cells with
  | nil => simp [lookupCell]
  | cons c rest ih =>
    obtain ⟨k, u⟩ := c
    by_cases hk : k = i
    · subst hk
      by_cases hj : j = k
      · subst hj
        simpa using ih
      · simpa [lookupCell, hj, Ne.symm hj] using ih
    · by_cases hj : k = j
      · subst hj
        simp [lookupCell, hk]
      · simpa [lookupCell, hk, hj] using ih

/-- A read after a write: the written value at that index, every other entry as before. -/
theorem Table.read_write (t : Table) (i j : Nat) (v : Counter) :
    (t.write i v).read j = if j = i then v else t.read j := by
  unfold Table.write Table.read
  split
  · rename_i h
    rw [lookupCell_filter]
    by_cases hj : j = i <;> simp [hj, h]
  · rw [lookupCell_insertCell]
    by_cases hj : j = i <;> simp [hj]

@[simp] theorem Table.read_write_same (t : Table) (i : Nat) (v : Counter) : (t.write i v).read i = v := by
  simp [Table.read_write]

theorem Table.read_write_other {t : Table} {i j : Nat} {v : Counter} (h : j ≠ i) : (t.write i v).read j = t.read j := by
  simp [Table.read_write, h]

theorem risingAbove_mono {lo lo' : Nat} (h : lo ≤ lo') {cells : List (Nat × Counter)}
    (hr : risingAbove lo' cells = true) : risingAbove lo cells = true := by
  cases cells with
  | nil => rfl
  | cons c rest =>
    simp only [risingAbove, Bool.and_eq_true, decide_eq_true_eq] at hr ⊢
    exact ⟨by omega, hr.2⟩

theorem risingAbove_insertCell {i : Nat} {v : Counter} {cells : List (Nat × Counter)} {lo : Nat} (hlo : lo ≤ i)
    (hr : risingAbove lo cells = true) : risingAbove lo (insertCell i v cells) = true := by
  induction cells generalizing lo with
  | nil => simp [insertCell, risingAbove, hlo]
  | cons c rest ih =>
    simp only [risingAbove, Bool.and_eq_true, decide_eq_true_eq] at hr
    simp only [insertCell]
    split
    · simp only [risingAbove, Bool.and_eq_true, decide_eq_true_eq]
      exact ⟨hlo, by omega, hr.2⟩
    · split
      · rename_i h
        simp only [risingAbove, Bool.and_eq_true, decide_eq_true_eq]
        exact ⟨hlo, h ▸ hr.2⟩
      · simp only [risingAbove, Bool.and_eq_true, decide_eq_true_eq]
        exact ⟨hr.1, ih (by omega) hr.2⟩

theorem risingAbove_filter {q : Nat × Counter → Bool} {cells : List (Nat × Counter)} {lo : Nat}
    (hr : risingAbove lo cells = true) : risingAbove lo (cells.filter q) = true := by
  induction cells generalizing lo with
  | nil => rfl
  | cons c rest ih =>
    simp only [risingAbove, Bool.and_eq_true, decide_eq_true_eq] at hr
    simp only [List.filter_cons]
    split
    · simp only [risingAbove, Bool.and_eq_true, decide_eq_true_eq]
      exact ⟨hr.1, ih hr.2⟩
    · exact risingAbove_mono (by omega) (ih hr.2)

theorem mem_insertCell {i : Nat} {v : Counter} {cells : List (Nat × Counter)} {c : Nat × Counter}
    (h : c ∈ insertCell i v cells) : c = (i, v) ∨ c ∈ cells := by
  induction cells with
  | nil => simpa [insertCell] using h
  | cons d rest ih =>
    simp only [insertCell] at h
    split at h
    · simpa using h
    · split at h
      · rcases List.mem_cons.1 h with h | h
        · exact .inl h
        · exact .inr (List.mem_cons_of_mem _ h)
      · rcases List.mem_cons.1 h with h | h
        · exact .inr (h ▸ List.mem_cons_self)
        · exact (ih h).imp id (List.mem_cons_of_mem _)

/-- A write within the table keeps its canonical form. -/
theorem Table.wf_write {t : Table} {w i : Nat} (v : Counter) (ht : t.wf w = true) (hi : i < 2 ^ w) :
    (t.write i v).wf w = true := by
  simp only [Table.wf, Bool.and_eq_true, List.all_eq_true, decide_eq_true_eq] at ht ⊢
  unfold Table.write
  split
  · exact ⟨risingAbove_filter ht.1, fun c hc => ht.2 c (List.mem_of_mem_filter hc)⟩
  · rename_i hv
    refine ⟨risingAbove_insertCell (Nat.zero_le _) ht.1, fun c hc => ?_⟩
    rcases mem_insertCell hc with rfl | hc
    · exact ⟨hi, hv⟩
    · exact ht.2 c hc

@[simp] theorem TableView.values_length (v : TableView) : v.values.length = 2 ^ v.width := by
  simp [TableView.values]

/-- Entry `i` of a reported table is the copy's entry `i`. -/
theorem TableView.values_getElem? (v : TableView) {i : Nat} (h : i < 2 ^ v.width) :
    v.values[i]? = some (v.table.read i) := by
  simp [TableView.values, h]

end Sys2Proof.Machine
end

