-- ==== Sys2Proof/Tests/Slice0.lean ====
section
/-! SUPPORT. Tests. Expected results are those of spec/95_test_vectors.md (named V-… or W…), of spec/30_encoding.md section 7,
or worked out by hand from the rules named. At the end, for every statement with hypotheses, a witness: a state and operands
that meet them together. -/

namespace Sys2Proof.Tests

open Sys2Proof.Machine

/-- The state a command or step leaves (the reset state where it stops). -/
def after : Result → State
  | .next t => t
  | .fault _ => State.reset
  | .refused _ => State.reset

/-- A configured block with nothing sent and nothing answered. -/
def running (c : Cfgr) (bt gt ct : Option Table) (ghr : Option Nat) (pm mp : Nat) : State :=
  { State.reset with phase := .running, cfgr := some c, bt := bt, gt := gt, ct := ct, ghr := ghr, pm := some pm, mp := some mp }

/-- Bimodal, M2 = 2, BT = [2,1,2,2], PM = MP = 1: W1 after its step 1. -/
def bim : State := running ⟨.bimodal, 0, 0, 0, 2⟩ (some ⟨2, [(1, 1)]⟩) none none none 1 1

/-- Gshare, M1 = 4, N = 2, GHR = 0b11, all cells 2. -/
def gsh : State := running ⟨.gshare, 0, 4, 2, 0⟩ none (some (.filled 2)) none (some 3) 0 0

/-- Hybrid, K = M1 = N = M2 = 2, BT[0] = 1 and the chooser cell CT[0] = `ct0` (V-H1 and V-H3). -/
def hyb (ct0 : Counter) : State :=
  running ⟨.hybrid, 2, 2, 2, 2⟩ (some ((Table.filled 2).write 0 1)) (some (.filled 2)) (some ((Table.filled 1).write 0 ct0))
    (some 0) 0 0

/-- A state with a sticky fault taken after `bim`. -/
def failed : State := { bim with phase := .failed, fault := .variantMismatch }

/-- `s` under MALFORMED_POLICY = Fault. -/
def strict (s : State) : State := { s with params := { s.params with malformedPolicy := .fault } }

/-- `s` with CNT_W = 2. -/
def shortCounters (s : State) : State := { s with params := { s.params with cntW := 2 } }

/-- `s` with the inputs sent. -/
def sent (s : State) (inputs : List HostInput) : State := { s with pending := inputs }

/-! ### WellFormed: what it refuses -/

theorem test_wellFormed_bpu_address : Instr.wellFormed .default (.bpu 0x100000000 .t) = false := by decide

theorem test_wellFormed_gpu_address : Instr.wellFormed .default (.gpu 0x100000000 .t) = false := by decide

theorem test_wellFormed_hpu_address : Instr.wellFormed .default (.hpu 0x100000000 .t) = false := by decide

theorem test_params_wf : (Params.mk 1 32 64 .noOp).wf = false ∧ (Params.mk 2 64 64 .noOp).wf = false := by decide

/-! ### Decode: words written out field by field (R53 to R59) -/

/-- M2 000001, N 000001, M1 000010, K 000001, each under two reserved bits, then rsv, sub 10, op 1 (V-D1). -/
theorem test_decode_cfg :
    decode .default 0b00_000001_00_000001_00_000010_00_000001_00_10_0001 = .command (.cfg .hybrid 1 2 1 1) := by decide

/-- The four widths at distinct values, variant code 0b11. -/
theorem test_decode_cfg_fields :
    decode .default 0b00_111111_00_100001_00_010010_00_001100_00_11_0001 = .command (.cfg .unrecognised 12 18 33 63) := by
  decide

theorem test_decode_bpu : decode .default 0b00000000000000000000000000000111_00_10_0010 = .command (.bpu 7 .x) := by decide

theorem test_decode_gpu : decode .default 0b00000000000000000000000000001000_00_01_0011 = .command (.gpu 8 .t) := by decide

/-- V-D2. -/
theorem test_decode_hpu :
    decode .default 0b11111111111111111111111111111100_00_00_0100 = .command (.hpu 0xFFFFFFFC .nt) := by decide

theorem test_decode_snap : decode .default 0b0101 = .command .snap := by decide

theorem test_decode_rate : decode .default 0b0110 = .command .rate := by decide

/-- V-D4 to V-D7, V-C17, and a number of 41 bits. -/
theorem test_decode_refuses :
    decode .default 0x0000000015 = .illegal .reservedBit ∧ decode .default 0x0000000081 = .illegal .reservedBit ∧
      decode .default 0x4000000001 = .illegal .reservedBit ∧ decode .default 0x0000800001 = .illegal .reservedBit ∧
      decode .default 0x0000000000 = .illegal .reservedOpcode ∧ decode .default 0x10000000005 = .notAWord := by decide

/-- R58 with ADDR_W = 30: bit 38 is reserved; with ADDR_W = 34 the word has 42 bits (R52). -/
theorem test_decode_address_widths :
    decode ⟨30, 30, 64, .noOp⟩ 0x4000000002 = .illegal .reservedBit ∧
      decode ⟨34, 32, 64, .noOp⟩ 0x30000000002 = .command (.bpu 0x300000000 .nt) := by decide

theorem test_encode : encode (.cfg .hybrid 1 2 1 1) = 0x0101020121 ∧ encode (.hpu 0x4 .nt) = 0x0000000404 := by decide

theorem test_decodeTableWord :
    decodeTableWord 40 0x0000000001 = some (.cfg .bimodal 0 0 0 0) ∧ decodeTableWord 8 0x02 = some (.bpu 0 .nt) ∧
      decodeTableWord 40 0x0000000006 = some .rate ∧ decodeTableWord 40 0x0000000007 = none := by decide

/-! ### One step per command -/

/-- V-C13, and the table has two cells. -/
theorem test_cfg_unused_field :
    (after (exec (.cfg .bimodal 63 0 0 1) .reset)).cfgr = some ⟨.bimodal, 0, 0, 0, 1⟩ ∧
      (after (exec (.cfg .bimodal 63 0 0 1) .reset)).bt = some ⟨2, []⟩ ∧
      (after (exec (.cfg .bimodal 63 0 0 1) .reset)).responses = [.ok] := by decide

/-- V-C9: the width is checked before the history. -/
theorem test_cfg_width_before_history :
    (after (exec (.cfg .gshare 0 40 41 0) .reset)).fault = .cfgWidthTooLarge ∧
      (after (exec (.cfg .gshare 0 40 41 0) .reset)).phase = .failed := by decide

/-- W1 step 2. -/
theorem test_bpu_saturating_down :
    (after (exec (.bpu 0x4 .nt) bim)).bt = some ⟨2, [(1, 0)]⟩ ∧ (after (exec (.bpu 0x4 .nt) bim)).pm = some 2 ∧
      (after (exec (.bpu 0x4 .nt) bim)).mp = some 1 ∧
      (after (exec (.bpu 0x4 .nt) bim)).responses = [.pred .nt] := by decide

/-- V-B8: 0x14 aliases with 0x4; a counter back at 2 leaves the listing. -/
theorem test_bpu_aliasing :
    (after (exec (.bpu 0x14 .t) bim)).bt = some ⟨2, []⟩ ∧ (after (exec (.bpu 0x14 .t) bim)).mp = some 2 := by decide

/-- V-G3: index 5; R92: GHR 0b11 becomes 0b01 on NT. -/
theorem test_gpu_index_and_history :
    (after (exec (.gpu 0x24 .nt) gsh)).gt = some ⟨2, [(5, 1)]⟩ ∧ (after (exec (.gpu 0x24 .nt) gsh)).ghr = some 1 := by decide

/-- V-G4: pcBits 0x3FFFFFFF, index 0xCFFFFFFF. -/
theorem test_gpu_wide_index : idxG 0xFFFFFFFF 32 4 0xF = 0xCFFFFFFF := by decide

/-- V-H1: bimodal selected and wrong, gshare right. -/
theorem test_hpu_chooser_up :
    (after (exec (.hpu 0x0 .t) (hyb 1))).bt = some ⟨2, []⟩ ∧ (after (exec (.hpu 0x0 .t) (hyb 1))).gt = some ⟨2, []⟩ ∧
      (after (exec (.hpu 0x0 .t) (hyb 1))).ct = some ⟨1, [(0, 2)]⟩ ∧ (after (exec (.hpu 0x0 .t) (hyb 1))).ghr = some 2 ∧
      (after (exec (.hpu 0x0 .t) (hyb 1))).mp = some 1 ∧
      (after (exec (.hpu 0x0 .t) (hyb 1))).responses = [.pred .nt] := by decide

/-- V-H3: gshare selected and right; the credit saturates at 3; BT is not written. -/
theorem test_hpu_selected_gshare :
    (after (exec (.hpu 0x0 .t) (hyb 3))).bt = some ⟨2, [(0, 1)]⟩ ∧
      (after (exec (.hpu 0x0 .t) (hyb 3))).gt = some ⟨2, [(0, 3)]⟩ ∧
      (after (exec (.hpu 0x0 .t) (hyb 3))).ct = some ⟨1, [(0, 3)]⟩ ∧ (after (exec (.hpu 0x0 .t) (hyb 3))).mp = some 0 := by decide

/-- The form of V-S1 after W1's step 1: counters and cells in index order. -/
theorem test_snap_listing :
    (after (exec .snap bim)).responses = [.snapshot ⟨1, 1, [⟨.bimodal, 2, ⟨2, [(1, 1)]⟩⟩]⟩] ∧
      (SnapshotRecord.mk 1 1 [⟨.bimodal, 2, ⟨2, [(1, 1)]⟩⟩]).listing = [(.bimodal, [2, 1, 2, 2])] := by decide

/-- V-S1: before CFG, a non-sticky error. -/
theorem test_snap_not_configured :
    (after (exec .snap .reset)).responses = [.error .notConfigured] ∧ (after (exec .snap .reset)).phase = .unconfigured := by decide

/-- P1 row 10: RATE(400, 8). -/
theorem test_rate :
    (after (exec .rate (running ⟨.bimodal, 0, 0, 0, 2⟩ (some (.filled 2)) none none none 8 4))).responses =
      [.rate 400 8] := by decide

/-- V-S3. -/
theorem test_rate_division_undefined : (after (exec .rate gsh)).responses = [.error .divisionUndefined] := by decide

/-- The next step after reset runs the word put there: V-E1, and V-E3. -/
theorem test_step_first_word :
    (after (step (State.reset.withFetchWord 40 0x0000000402))).responses = [.fault .notConfigured] ∧
      (after (step (State.reset.withFetchWord 40 0x0000000042))).responses = [.fault .illegalCommand] ∧
      (after (step (State.reset.withFetchWord 40 0x0200000001))).responses = [.ok] := by decide

/-! ### The assembler -/

/-- 30_encoding.md section 7; PU after a hybrid CFG is HPU. -/
theorem test_assemble :
    assembleText .default "CFG hybrid, K=1, M1=2, N=1, M2=1 ; P3\n\nPU 0x4, NT\nRATE".toList =
      .ok [0x0101020121, 0x0000000404, 0x0000000006] := by decide

theorem test_assemble_errors :
    assembleText .default "PU 0x4, NT".toList = .error .puBeforeCfg ∧
      assembleText .default "CFG bimodal, K=1, M2=1".toList = .error .unusedField ∧
      assembleText .default "CFG gshare, M1=2, M1=3".toList = .error .repeatedField ∧
      assembleText .default "CFG bimodal, M2=64".toList = .error .widthTooLarge ∧
      assembleText .default "BPU 0x100000000, T".toList = .error .addressTooLarge ∧
      assembleText .default "BPU 4".toList = .error .badLine := by decide

/-! ### Witnesses: the hypotheses of each statement can be met -/

theorem witness_HardwareResetInAnyPhase :
    (sent failed [.reset]).pending = [.reset] ∧ (sent failed [.reset]).phase = .failed ∧
      step (sent failed [.reset]) = .next (after (step (sent failed [.reset]))) ∧
      (after (step (sent failed [.reset]))).phase ≠ .failed ∧
      (sent bim [.reset]).phase ≠ .unconfigured ∧
      step (sent bim [.reset]) = .next (after (step (sent bim [.reset]))) ∧
      (after (step (sent bim [.reset]))).phase = .unconfigured :=
  ⟨rfl, rfl, rfl, by decide, by decide, rfl, by decide⟩

theorem witness_StepKeepsInvariant :
    (sent (hyb 1) [.command 0x14]).Inv ∧
      step (sent (hyb 1) [.command 0x14]) = .next (after (step (sent (hyb 1) [.command 0x14]))) := ⟨by decide, rfl⟩

theorem witness_InvariantStatesNeverStop : (sent gsh [.command 0x0813, .reset]).Inv ∧ failed.Inv := by decide

theorem witness_StepRunsDecodedCommand :
    (sent bim [.command 0x0412]).pending = [.command 0x0412] ∧
      decode (sent bim [.command 0x0412]).params 0x0412 = .command (.bpu 0x4 .t) := by decide

theorem witness_IllegalWordTakesIllegalCommand :
    (sent bim [.command 0x42]).pending = [.command 0x42] ∧ decode bim.params 0x42 = .illegal .reservedBit ∧
      (sent bim [.command 0x42]).phase ≠ .failed ∧ (sent failed [.command 0x42]).phase = .failed := by decide

theorem witness_IdleStepChangesNothing : bim.pending = [] := by decide

theorem witness_EveryCommandAnsweredOnce :
    step (sent bim [.command 0x05]) = .next (after (step (sent bim [.command 0x05]))) ∧
      step (sent bim [.reset]) = .next (after (step (sent bim [.reset]))) ∧ step bim = .next (after (step bim)) :=
  ⟨rfl, rfl, rfl⟩

theorem witness_DecodeOfEncode :
    Params.default.wf = true ∧ Instr.wellFormed .default (.hpu 0xFFFFFFFF .x) = true ∧
      Instr.wellFormed .default (.cfg .unrecognised 63 63 63 63) = true := by decide

theorem witness_EncodeOfDecode :
    Params.default.wf = true ∧ decode .default 0x0432 = .command (.bpu 0x4 .x) ∧
      decode .default 0x0422 = .command (.bpu 0x4 .x) := by decide

/-- A word for each way of being illegal, at the lowest bit of its range, and a legal one. -/
theorem witness_IllegalWordsAreTheReservedOnes :
    (Params.mk 31 32 64 .noOp).wf = true ∧ 0x8000000002 < 2 ^ (Params.mk 31 32 64 .noOp).cmdW ∧
      decode ⟨31, 32, 64, .noOp⟩ 0x8000000002 = .illegal .reservedBit ∧
      decode ⟨31, 32, 64, .noOp⟩ 0x07 = .illegal .reservedOpcode ∧
      decode ⟨31, 32, 64, .noOp⟩ 0x41 = .illegal .reservedBit ∧
      decode ⟨31, 32, 64, .noOp⟩ 0x4000000001 = .illegal .reservedBit ∧
      decode ⟨31, 32, 64, .noOp⟩ 0x16 = .illegal .reservedBit ∧
      decode ⟨31, 32, 64, .noOp⟩ 0x7FFFFFFF02 = .command (.bpu 0x7FFFFFFF .nt) := by decide

theorem witness_OutcomeCodesDecode : Params.default.wf = true ∧ 0xFFFFFFFF < 2 ^ Params.default.addrW := by decide

/-- Both sides of the boundary M2 = ADDR_W - 2, and M2 = 0 (V-B5, V-B4). -/
theorem witness_BimodalIndex :
    0xFFFFFFFF < 2 ^ 32 ∧ (30 : Width).toNat ≤ 32 - 2 ∧ 32 - 2 < (31 : Width).toNat ∧ (0 : Width).toNat = 0 ∧
      idxB 0xFFFFFFFF 30 = 0x3FFFFFFF ∧ idxB 0xFFFFFFFF 32 = 0x3FFFFFFF ∧ idxB 0xFFFFFFFF 0 = 0 ∧
      0xFFFFFFFC >>> 2 = 0xFFFFFFFF >>> 2 := by decide

/-- N = M1 (V-G2), N = 0 (V-G5) and N below M1 (V-G7). -/
theorem witness_GshareIndex :
    (3 : Width).toNat ≤ (3 : Width).toNat ∧ 0b101 < 2 ^ (3 : Width).toNat ∧ 1 ≤ (3 : Width).toNat ∧
      idxG 0x1C 3 3 0b101 = 2 ∧ (0 : Width).toNat ≤ (2 : Width).toNat ∧ 0 < 2 ^ (0 : Width).toNat ∧ idxG 0x8 2 0 0 = 2 ∧
      (1 : Width).toNat ≤ (3 : Width).toNat ∧ 1 < 2 ^ (1 : Width).toNat ∧ idxG 0x0 3 1 1 = 4 ∧
      0x1C < 2 ^ 5 ∧ (3 : Width).toNat ≤ 5 - 2 ∧ 5 - 2 < (4 : Width).toNat := by decide

theorem witness_ChooserIndex :
    0xFFFFFFFF < 2 ^ 32 ∧ (30 : Width).toNat ≤ 32 - 2 ∧ 32 - 2 < (31 : Width).toNat ∧ idxC 0xC 1 = 1 := by decide

theorem witness_IndicesInRange :
    (hyb 1).Inv ∧ (hyb 1).cfgr = some ⟨.hybrid, 2, 2, 2, 2⟩ ∧ (hyb 1).ghr = some 0 := by decide

theorem witness_ChooserCredit :
    valid .t = true ∧ agrees .t .t = true ∧ agrees .nt .t = false ∧ credit 3 .nt .t .t = 3 ∧ credit 0 .t .nt .t = 0 ∧
      credit 2 .t .nt .t = 1 ∧ credit 2 .nt .nt .t = 2 ∧ credit 1 .t .t .t = 1 := by decide

/-- Widths at MAX_W, and N = M1. -/
theorem witness_CfgConstructs :
    State.reset.phase = .unconfigured ∧ (32 : Width).toNat ≤ State.reset.params.maxW ∧
      (32 : Width).toNat ≤ (32 : Width).toNat := by decide

/-- V-C1 then V-C10; V-C7; V-C4; V-C5; V-C16. -/
theorem witness_CfgChecksInOrder :
    bim.phase = .running ∧ State.reset.phase = .unconfigured ∧ State.reset.params.maxW < (33 : Width).toNat ∧
      ¬ State.reset.params.maxW < (32 : Width).toNat ∧ (32 : Width).toNat < (33 : Width).toNat ∧ failed.phase = .failed := by decide

theorem witness_CfgFrame :
    exec (.cfg .hybrid 0 0 0 0) .reset = .next (after (exec (.cfg .hybrid 0 0 0 0) .reset)) ∧
      exec (.cfg .hybrid 0 0 0 0) bim = .next (after (exec (.cfg .hybrid 0 0 0 0) bim)) := ⟨rfl, rfl⟩

theorem witness_BpuPredictsAndUpdates :
    bim.phase = .running ∧ bim.cfgr = some ⟨.bimodal, 0, 0, 0, 2⟩ ∧ bim.bt = some ⟨2, [(1, 1)]⟩ ∧ bim.pm = some 1 ∧
      bim.mp = some 1 ∧ 1 ≠ 2 ^ bim.params.cntW - 1 ∧ ¬ (BranchOutcome.x = .x ∧ bim.params.malformedPolicy = .fault) ∧
      ¬ (BranchOutcome.t = .x ∧ (strict bim).params.malformedPolicy = .fault) := by decide

theorem witness_GpuPredictsAndUpdates :
    gsh.phase = .running ∧ gsh.cfgr = some ⟨.gshare, 0, 4, 2, 0⟩ ∧ gsh.gt = some (.filled 2) ∧ gsh.ghr = some 3 ∧
      gsh.pm = some 0 ∧ gsh.mp = some 0 ∧ 0 ≠ 2 ^ gsh.params.cntW - 1 ∧
      ¬ (BranchOutcome.x = .x ∧ gsh.params.malformedPolicy = .fault) := by decide

theorem witness_HpuPredictsAndUpdates :
    (hyb 2).phase = .running ∧ (hyb 2).cfgr = some ⟨.hybrid, 2, 2, 2, 2⟩ ∧ (hyb 2).bt = some ⟨2, [(0, 1)]⟩ ∧
      (hyb 2).gt = some (.filled 2) ∧ (hyb 2).ct = some ⟨1, [(0, 2)]⟩ ∧ (hyb 2).ghr = some 0 ∧ (hyb 2).pm = some 0 ∧
      (hyb 2).mp = some 0 ∧ 0 ≠ 2 ^ (hyb 2).params.cntW - 1 ∧
      ¬ (BranchOutcome.x = .x ∧ (hyb 2).params.malformedPolicy = .fault) := by decide

/-- V-B13, V-B15, V-E6: the last count CNT_W = 2 allows, and one short of it. -/
theorem witness_PredictChecksInOrder :
    failed.phase = .failed ∧ State.reset.phase = .unconfigured ∧ bim.cfgr = some ⟨.bimodal, 0, 0, 0, 2⟩ ∧
      bim.pm = some 1 ∧ bim.mp = some 1 ∧ Variant.bimodal ≠ .gshare ∧
      (after (exec (.bpu 0 .t) (shortCounters { bim with pm := some 3 }))).fault = .counterOverflow ∧
      (after (exec (.bpu 0 .t) (shortCounters { bim with pm := some 2 }))).pm = some 3 ∧
      (after (exec (.bpu 7 .x) (strict bim))).fault = .malformedOutcome ∧
      (after (exec (.gpu 7 .x) (strict bim))).fault = .variantMismatch := by decide

/-- BPU, GPU and HPU in a block already FAILED, the other end of the three frames. -/
theorem witness_frames_failed :
    exec (.bpu 0x4 .nt) failed = .next (after (exec (.bpu 0x4 .nt) failed)) ∧
      exec (.gpu 0x4 .nt) failed = .next (after (exec (.gpu 0x4 .nt) failed)) ∧
      exec (.hpu 0x4 .nt) failed = .next (after (exec (.hpu 0x4 .nt) failed)) ∧
      (after (exec (.bpu 0x4 .nt) failed)).responses = failed.responses ++ [.failed .variantMismatch] := ⟨rfl, rfl, rfl, by decide⟩

theorem witness_BpuFrame :
    exec (.bpu 0x4 .nt) bim = .next (after (exec (.bpu 0x4 .nt) bim)) ∧ bim.cfgr = some ⟨.bimodal, 0, 0, 0, 2⟩ ∧
      bim.bt = some ⟨2, [(1, 1)]⟩ ∧ (after (exec (.bpu 0x4 .nt) bim)).bt = some ⟨2, [(1, 0)]⟩ ∧ 0 ≠ idxB 0x4 2 :=
  ⟨rfl, by decide⟩

theorem witness_GpuFrame :
    exec (.gpu 0x24 .t) gsh = .next (after (exec (.gpu 0x24 .t) gsh)) ∧ gsh.cfgr = some ⟨.gshare, 0, 4, 2, 0⟩ ∧
      gsh.ghr = some 3 ∧ gsh.gt = some (.filled 2) ∧ (after (exec (.gpu 0x24 .t) gsh)).gt = some ⟨2, [(5, 3)]⟩ ∧
      0 ≠ idxG 0x24 4 2 3 := ⟨rfl, by decide⟩

theorem witness_HpuFrame :
    exec (.hpu 0x0 .t) (hyb 1) = .next (after (exec (.hpu 0x0 .t) (hyb 1))) ∧
      (hyb 1).cfgr = some ⟨.hybrid, 2, 2, 2, 2⟩ ∧ (hyb 1).ghr = some 0 ∧ (hyb 1).bt = some ⟨2, [(0, 1)]⟩ ∧
      (hyb 1).gt = some (.filled 2) ∧ (hyb 1).ct = some (.filled 1) ∧
      (after (exec (.hpu 0x0 .t) (hyb 1))).bt = some (.filled 2) ∧
      (after (exec (.hpu 0x0 .t) (hyb 1))).gt = some (.filled 2) ∧
      (after (exec (.hpu 0x0 .t) (hyb 1))).ct = some ⟨1, [(0, 2)]⟩ ∧ 1 ≠ idxB 0x0 2 ∧ 1 ≠ idxG 0x0 2 2 0 ∧
      1 ≠ idxC 0x0 2 := ⟨rfl, by decide⟩

/-- In the state of `witness_HpuFrame` a BT cell and the chooser cell move, in that of `test_hpu_selected_gshare` a GT cell. -/
theorem witness_HybridTrainsOneTable :
    exec (.hpu 0x0 .t) (hyb 1) = .next (after (exec (.hpu 0x0 .t) (hyb 1))) ∧
      (Table.filled 2).read 0 ≠ (Table.mk 2 [(0, 1)]).read 0 ∧ (Table.mk 1 [(0, 2)]).read 0 ≠ (Table.filled 1).read 0 ∧
      (Table.mk 2 [(0, 3)]).read 0 ≠ (Table.filled 2).read 0 := ⟨rfl, by decide⟩

theorem witness_CountersMoveByAtMostOne :
    step (sent bim [.command 0x0402]) = .next (after (step (sent bim [.command 0x0402]))) ∧
      (after (step (sent bim [.command 0x0402]))).responses ≠ (sent bim [.command 0x0402]).responses ++ [.ok] ∧
      (sent bim [.command 0x0402]).bt = some ⟨2, [(1, 1)]⟩ ∧
      (after (step (sent bim [.command 0x0402]))).bt = some ⟨2, [(1, 0)]⟩ := ⟨rfl, by decide⟩

theorem witness_CountersCountPredictions :
    exec (.bpu 0x4 .nt) bim = .next (after (exec (.bpu 0x4 .nt) bim)) ∧
      exec .snap bim = .next (after (exec .snap bim)) ∧
      (after (exec (.bpu 0x4 .nt) bim)).responses = bim.responses ++ [.pred .nt] ∧
      (after (exec .snap bim)).responses ≠ bim.responses ++ [.ok] ∧
      ((after (exec .snap bim)).responses ≠ bim.responses ++ [.pred .t] ∧
        (after (exec .snap bim)).responses ≠ bim.responses ++ [.pred .nt]) := ⟨rfl, rfl, by decide⟩

/-- N = 2, the least the statement speaks of. -/
theorem witness_HistoryShift :
    exec (.gpu 0x24 .t) gsh = .next (after (exec (.gpu 0x24 .t) gsh)) ∧
      (after (exec (.gpu 0x24 .t) gsh)).responses = gsh.responses ++ [.pred .t] ∧
      gsh.cfgr = some ⟨.gshare, 0, 4, 2, 0⟩ ∧ 2 ≤ (2 : Width).toNat ∧ gsh.ghr = some 3 ∧ 3 < 2 ^ (2 : Width).toNat :=
  ⟨rfl, by decide⟩

/-- Gshare, M1 = 2, N = 0 (V-G16). -/
def noHistory : State := running ⟨.gshare, 0, 2, 0, 0⟩ none (some (.filled 2)) none (some 0) 0 0

theorem witness_HistoryOfNoBits :
    exec (.gpu 0x8 .t) noHistory = .next (after (exec (.gpu 0x8 .t) noHistory)) ∧ noHistory.Inv ∧
      noHistory.cfgr = some ⟨.gshare, 0, 2, 0, 0⟩ ∧ noHistory.ghr = some 0 ∧ (0 : Width).toNat = 0 := ⟨rfl, by decide⟩

/-- Gshare, M1 = 4, N = 4, just configured, and V-G15's commands: GHR ends at 0b1011. -/
def windowed : State := running ⟨.gshare, 0, 4, 4, 0⟩ none (some (.filled 2)) none (some 0) 0 0

theorem witness_HistoryWindow :
    windowed.phase = .running ∧ windowed.cfgr = some ⟨.gshare, 0, 4, 4, 0⟩ ∧ windowed.ghr = some 0 ∧
      (after (execAll [.gpu 0 .t, .gpu 0 .t, .snap, .gpu 0 .nt, .gpu 0 .t] windowed)).phase = .running ∧
      (after (execAll [.gpu 0 .t, .gpu 0 .t, .snap, .gpu 0 .nt, .gpu 0 .t] windowed)).ghr = some 0b1011 := by decide

theorem witness_HistoryWindow_run :
    execAll [.gpu 0 .t, .gpu 0 .t, .snap, .gpu 0 .nt, .gpu 0 .t] windowed =
      .next (after (execAll [.gpu 0 .t, .gpu 0 .t, .snap, .gpu 0 .nt, .gpu 0 .t] windowed)) := rfl

/-- V-B9, V-H7, and a GPU whose history shifts in a 0. -/
theorem witness_MalformedOutcomeIsNoOpUpdate :
    exec (.bpu 0x7 .x) bim = .next (after (exec (.bpu 0x7 .x) bim)) ∧
      exec (.gpu 0x24 .x) gsh = .next (after (exec (.gpu 0x24 .x) gsh)) ∧
      exec (.hpu 0x0 .x) (hyb 1) = .next (after (exec (.hpu 0x0 .x) (hyb 1))) ∧
      (after (exec (.bpu 0x7 .x) bim)).responses = bim.responses ++ [.pred .nt] ∧
      (after (exec (.gpu 0x24 .x) gsh)).responses = gsh.responses ++ [.pred .t] ∧
      (after (exec (.hpu 0x0 .x) (hyb 1))).responses = (hyb 1).responses ++ [.pred .nt] ∧
      (after (exec (.gpu 0x24 .x) gsh)).ghr = some 1 ∧ gsh.cfgr = some ⟨.gshare, 0, 4, 2, 0⟩ ∧ 1 ≤ (2 : Width).toNat :=
  ⟨rfl, rfl, rfl, by decide⟩

/-- The bimodal block that `noHistory` acts like. -/
def likeNoHistory : State := running ⟨.bimodal, 0, 0, 0, 2⟩ (some (.filled 2)) none none none 0 0

theorem witness_GshareWithoutHistoryIsBimodal :
    execAll ([(0x8, .t), (0x8, .nt)].map fun r => .bpu r.1 r.2) likeNoHistory =
        .next (after (execAll [.bpu 0x8 .t, .bpu 0x8 .nt] likeNoHistory)) ∧
      likeNoHistory.phase = .running ∧ noHistory.phase = .running ∧ likeNoHistory.params = noHistory.params ∧
      likeNoHistory.cfgr = some ⟨.bimodal, 0, 0, 0, 2⟩ ∧ noHistory.cfgr = some ⟨.gshare, 0, 2, 0, 0⟩ ∧
      (0 : Width).toNat = 0 ∧ likeNoHistory.bt = noHistory.gt ∧ noHistory.ghr = some 0 ∧ likeNoHistory.pm = noHistory.pm ∧
      likeNoHistory.mp = noHistory.mp := ⟨rfl, by decide⟩

/-- V-B2 and V-B1; an aliasing pair for each of the three indices of `hyb`. -/
theorem witness_AliasedAddressesActAlike :
    bim.cfgr = some ⟨.bimodal, 0, 0, 0, 2⟩ ∧ idxB 0x4 2 = idxB 0x14 2 ∧ gsh.cfgr = some ⟨.gshare, 0, 4, 2, 0⟩ ∧
      gsh.ghr = some 3 ∧ idxG 0x4 4 2 3 = idxG 0x44 4 2 3 ∧ (hyb 1).cfgr = some ⟨.hybrid, 2, 2, 2, 2⟩ ∧
      (hyb 1).ghr = some 0 ∧ idxG 0x4 2 2 0 = idxG 0x14 2 2 0 ∧ idxC 0x4 2 = idxC 0x14 2 := by decide

theorem witness_SnapReports :
    bim.phase = .running ∧ bim.cfgr = some ⟨.bimodal, 0, 0, 0, 2⟩ ∧ bim.pm = some 1 ∧ bim.mp = some 1 ∧
      bim.bt = some ⟨2, [(1, 1)]⟩ ∧ gsh.phase = .running ∧ gsh.cfgr = some ⟨.gshare, 0, 4, 2, 0⟩ ∧
      gsh.gt = some (.filled 2) ∧ gsh.pm = some 0 ∧ gsh.mp = some 0 ∧ (hyb 1).phase = .running ∧
      (hyb 1).cfgr = some ⟨.hybrid, 2, 2, 2, 2⟩ ∧ (hyb 1).bt = some ⟨2, [(0, 1)]⟩ ∧ (hyb 1).gt = some (.filled 2) ∧
      (hyb 1).ct = some (.filled 1) ∧ (hyb 1).pm = some 0 ∧ (hyb 1).mp = some 0 := by decide

theorem witness_RateReports : bim.phase = .running ∧ bim.pm = some 1 ∧ bim.mp = some 1 ∧ 1 ≠ 0 := by decide

theorem witness_RateIsAPercentage :
    exec .rate bim = .next (after (exec .rate bim)) ∧ bim.Inv ∧
      (after (exec .rate bim)).responses = bim.responses ++ [.rate 100 1] := ⟨rfl, by decide⟩

theorem witness_ReadOutCommandsFrame :
    exec .snap bim = .next (after (exec .snap bim)) ∧ exec .rate failed = .next (after (exec .rate failed)) := ⟨rfl, rfl⟩

/-- W4: the three configurations. -/
theorem witness_SnapshotAfterConfiguration :
    exec (.cfg .bimodal 0 0 0 1) .reset = .next (after (exec (.cfg .bimodal 0 0 0 1) .reset)) ∧
      exec (.cfg .gshare 0 2 1 0) .reset = .next (after (exec (.cfg .gshare 0 2 1 0) .reset)) ∧
      exec (.cfg .hybrid 1 2 1 1) .reset = .next (after (exec (.cfg .hybrid 1 2 1 1) .reset)) ∧
      (after (exec (.cfg .bimodal 0 0 0 1) .reset)).responses = State.reset.responses ++ [.ok] ∧
      (after (exec (.cfg .gshare 0 2 1 0) .reset)).responses = State.reset.responses ++ [.ok] ∧
      (after (exec (.cfg .hybrid 1 2 1 1) .reset)).responses = State.reset.responses ++ [.ok] :=
  ⟨rfl, rfl, rfl, by decide⟩

theorem witness_SnapshotShowsLastUpdate :
    exec (.bpu 0x4 .nt) bim = .next (after (exec (.bpu 0x4 .nt) bim)) ∧ bim.cfgr = some ⟨.bimodal, 0, 0, 0, 2⟩ ∧
      bim.bt = some ⟨2, [(1, 1)]⟩ ∧ bim.pm = some 1 ∧
      (after (exec (.bpu 0x4 .nt) bim)).responses = bim.responses ++ [.pred .nt] ∧ 3 < 2 ^ (2 : Width).toNat ∧
      3 ≠ idxB 0x4 2 := ⟨rfl, by decide⟩

/-- A legal and an illegal word in FAILED (V-E4), and the reset that ends it. -/
theorem witness_FailedAnswersEveryWord :
    step (sent failed [.reset]) = .next (after (step (sent failed [.reset]))) ∧
      (after (step (sent failed [.reset]))).phase ≠ .failed ∧ (sent failed [.command 0x07]).phase = .failed ∧
      (sent failed [.command 0x07]).pending = [.command 0x07] ∧ 0x07 < 2 ^ failed.params.cmdW ∧
      0xFFFFFFFFFF < 2 ^ failed.params.cmdW := ⟨rfl, by decide⟩

/-- V-E7; and a SNAP in FAILED. -/
theorem witness_StickyFaultEntry :
    step (sent bim [.command 0x13]) = .next (after (step (sent bim [.command 0x13]))) ∧
      step (sent failed [.command 0x05]) = .next (after (step (sent failed [.command 0x05]))) ∧
      (sent bim [.command 0x13]).pending = [.command 0x13] ∧
      (after (step (sent bim [.command 0x13]))).responses = bim.responses ++ [.fault .variantMismatch] ∧
      (sent failed [.command 0x05]).phase = .failed ∧ (sent failed [.command 0x05]).pending = [.command 0x05] :=
  ⟨rfl, rfl, by decide⟩

theorem witness_NonStickyErrors :
    exec .rate gsh = .next (after (exec .rate gsh)) ∧ State.reset.phase = .unconfigured ∧ gsh.phase = .running ∧
      gsh.pm = some 0 ∧ gsh.mp = some 0 ∧
      (after (exec .rate gsh)).responses = gsh.responses ++ [.error .divisionUndefined] := ⟨rfl, by decide⟩

/-- An accepted CFG, a fault, a reset. -/
theorem witness_PhaseAndFaultTransitions :
    step (sent .reset [.command 0x0200000001]) = .next (after (step (sent .reset [.command 0x0200000001]))) ∧
      step (sent .reset [.command 0x07]) = .next (after (step (sent .reset [.command 0x07]))) ∧
      step (sent failed [.reset]) = .next (after (step (sent failed [.reset]))) ∧ bim.Inv ∧ bim.phase ≠ .failed :=
  ⟨rfl, rfl, rfl, by decide⟩

theorem witness_ConfigurationIsImmutable :
    step (sent .reset [.command 0x0200000001]) = .next (after (step (sent .reset [.command 0x0200000001]))) ∧
      step (sent bim [.reset]) = .next (after (step (sent bim [.reset]))) ∧
      (after (step (sent .reset [.command 0x0200000001]))).cfgr ≠ (sent .reset [.command 0x0200000001]).cfgr ∧
      (after (step (sent bim [.reset]))).cfgr ≠ (sent bim [.reset]).cfgr := ⟨rfl, rfl, by decide⟩

theorem witness_PuExpandsToLastVariant :
    (∀ line ∈ [AsmLine.snap, AsmLine.hpu 0 .t], ∀ v f, line ≠ .cfg v f) ∧
      assemble .default [.cfg .bimodal [(.m2, 1)], .cfg .gshare [(.m1, 2)], .snap, .pu 0x8 .t] =
        .ok [.cfg .bimodal 0 0 0 1, .cfg .gshare 0 2 0 0, .snap, .gpu 0x8 .t] := ⟨by simp, by decide⟩

theorem witness_AssembledProgramDecodes :
    Params.default.wf = true ∧ assemble .default [.cfg .hybrid [(.k, 63)], .pu 0xFFFFFFFF .x] =
      .ok [.cfg .hybrid 63 0 0 0, .hpu 0xFFFFFFFF .x] := by decide

end Sys2Proof.Tests
end

section
/-! SUPPORT. The invariant of the state, piece by piece: what each update, each command and each step does to it; with it the
settled statements about the state (spec/10_state.md). -/

namespace Sys2Proof.Machine

/-! ### What a command that stops short leaves unchanged -/

/-- Short of its writes a command leaves the block FAILED, and all but PHASE and FAULT as they were (R131, R133). -/
theorem StopsShort.frame {s t : State} (h : StopsShort s t) :
    t.phase = .failed ∧ t.cfgr = s.cfgr ∧ t.bt = s.bt ∧ t.gt = s.gt ∧ t.ct = s.ct ∧ t.ghr = s.ghr ∧ t.pm = s.pm ∧
      t.mp = s.mp := by
  rcases h with ⟨hp, rfl⟩ | ⟨_, _, _, rfl⟩
  · exact ⟨hp, rfl, rfl, rfl, rfl, rfl, rfl, rfl⟩
  · exact ⟨rfl, rfl, rfl, rfl, rfl, rfl, rfl, rfl⟩

theorem StopsShort.pending_eq {s t : State} (h : StopsShort s t) : t.pending = s.pending := by
  rcases h with ⟨_, rfl⟩ | ⟨_, _, _, rfl⟩ <;> rfl

/-! ### The parts of the invariant -/

theorem State.inv_iff {s : State} :
    s.Inv ↔ s.params.wf = true ∧ s.phaseInv = true ∧ s.engineInv = true ∧ s.pendingInv = true := by
  simp [State.Inv, State.inv, and_assoc]

/-- The engine's part of the invariant, of a block configured by `c`: `State.engineInv_iff`. -/
structure EngineInv (c : Cfgr) (s : State) : Prop where
  cfgr : c.wf s.params = true
  bt : tableInv c.variant.hasBT c.m2 2 s.bt = true
  gt : tableInv c.variant.hasGT c.m1 2 s.gt = true
  ct : tableInv c.variant.hasCT c.k 1 s.ct = true
  ghr : historyInv c.variant.hasGT c.n s.ghr = true
  counters : countersInv s.params s.pm s.mp = true

theorem State.engineInv_iff {s : State} {c : Cfgr} (h : s.cfgr = some c) : s.engineInv = true ↔ EngineInv c s := by
  simp only [State.engineInv, h, Bool.and_eq_true]
  exact ⟨fun ⟨⟨⟨⟨⟨hc, hbt⟩, hgt⟩, hct⟩, hghr⟩, hcnt⟩ => ⟨hc, hbt, hgt, hct, hghr, hcnt⟩,
    fun ⟨hc, hbt, hgt, hct, hghr, hcnt⟩ => ⟨⟨⟨⟨⟨hc, hbt⟩, hgt⟩, hct⟩, hghr⟩, hcnt⟩⟩

theorem State.Inv.engine {s : State} {c : Cfgr} (h : s.Inv) (hc : s.cfgr = some c) : EngineInv c s := by
  obtain ⟨_, _, hengine, _⟩ := State.inv_iff.1 h
  exact (State.engineInv_iff hc).1 hengine

/-- Outside FAILED, FAULT is NONE (R32). -/
theorem State.fault_of_phaseInv {s : State} (h : s.phaseInv = true) (hp : s.phase ≠ .failed) : s.fault = .noFault := by
  unfold State.phaseInv at h
  split at h
  · exact of_decide_eq_true (Bool.and_eq_true_iff.1 h).1
  · exact of_decide_eq_true (Bool.and_eq_true_iff.1 h).1
  · exact absurd ‹_› hp

/-- The phase's part of the invariant speaks of PHASE, FAULT and CFGR alone. -/
theorem State.phaseInv_congr {s t : State} (hp : t.phase = s.phase) (hf : t.fault = s.fault) (hc : t.cfgr = s.cfgr) :
    t.phaseInv = s.phaseInv := by
  simp [State.phaseInv, hp, hf, hc]

theorem Cfgr.n_le_m1 {p : Params} {c : Cfgr} (h : c.wf p = true) : c.n.toNat ≤ c.m1.toNat := by
  simp only [Cfgr.wf, Bool.and_eq_true, decide_eq_true_eq] at h
  obtain ⟨⟨⟨⟨_, hn⟩, _⟩, _⟩, _⟩ := h
  exact hn

/-- The history index is one of the table's `2 ^ M1` (R91). -/
theorem idxG_lt {a g : Nat} {m1 n : Width} (hn : n.toNat ≤ m1.toNat) (hg : g < 2 ^ n.toNat) :
    idxG a m1 n g < 2 ^ m1.toNat := by
  have hsplit : 2 ^ m1.toNat = 2 ^ n.toNat * 2 ^ (m1.toNat - n.toNat) := by
    rw [← Nat.pow_add, Nat.add_sub_cancel' hn]
  have hpc := pcBits_lt a m1
  simp only [idxG]
  split
  · exact hpc
  · apply Nat.or_lt_two_pow
    · have hhigh : pcBits a m1 >>> (m1.toNat - n.toNat) < 2 ^ n.toNat := by
        rw [Nat.shiftRight_eq_div_pow]
        exact Nat.div_lt_of_lt_mul (by rwa [Nat.mul_comm, ← hsplit])
      rw [Nat.shiftLeft_eq, hsplit]
      exact Nat.mul_lt_mul_of_pos_right (Nat.xor_lt_two_pow hhigh hg) (Nat.two_pow_pos _)
    · exact (Nat.mod_le _ _).trans_lt hpc

theorem tableInv_write {present : Bool} {w : Width} {fill : Counter} {t : Table} {i : Nat} (v : Counter)
    (h : tableInv present w fill (some t) = true) (hi : i < 2 ^ w.toNat) :
    tableInv present w fill (some (t.write i v)) = true := by
  simp only [tableInv, Bool.and_eq_true, Table.write_fill] at h ⊢
  obtain ⟨⟨hpresent, hwf⟩, hfill⟩ := h
  exact ⟨⟨hpresent, Table.wf_write v hwf hi⟩, hfill⟩

theorem tableInv_ite {present : Bool} {w : Width} {fill : Counter} {t u : Table} {b : Bool}
    (ht : tableInv present w fill (some t) = true) (hu : tableInv present w fill (some u) = true) :
    tableInv present w fill (some (if b then t else u)) = true := by
  split
  · exact ht
  · exact hu

theorem lt_of_historyInv {present : Bool} {n : Width} {g : Nat} (h : historyInv present n (some g) = true) :
    g < 2 ^ n.toNat :=
  of_decide_eq_true (Bool.and_eq_true_iff.1 h).2

theorem historyInv_next {present : Bool} {n : Width} {g : Nat} (o : BranchOutcome)
    (h : historyInv present n (some g) = true) : historyInv present n (some (historyNext n g o)) = true := by
  simp only [historyInv, Bool.and_eq_true, decide_eq_true_eq] at h ⊢
  exact ⟨h.1, historyNext_lt o h.2⟩

/-- Counting a prediction keeps MP at most PM, and PM within its width while it is short of the maximum. -/
theorem countersInv_count {p : Params} {pm mp : Nat} (q : Prediction) (o : BranchOutcome)
    (h : countersInv p (some pm) (some mp) = true) (hfull : pm ≠ 2 ^ p.cntW - 1) :
    countersInv p (some (pm + 1)) (some (countMiss mp q o)) = true := by
  simp only [countersInv, Bool.and_eq_true, decide_eq_true_eq] at h ⊢
  have := countMiss_le mp q o
  omega

theorem EngineInv.idxG_lt {c : Cfgr} {s : State} {g : Nat} (e : EngineInv c s) (hg : s.ghr = some g) (a : Nat) :
    idxG a c.m1 c.n g < 2 ^ c.m1.toNat :=
  Machine.idxG_lt (Cfgr.n_le_m1 e.cfgr) (lt_of_historyInv (hg ▸ e.ghr))

/-- An admitted predict command, PM being short of its maximum, can count. -/
theorem EngineInv.count {c : Cfgr} {s : State} {v : Variant} {o : BranchOutcome} {pm mp : Nat} (e : EngineInv c s)
    (hadm : Admitted v o s c pm mp) (p : Prediction) (o' : BranchOutcome) :
    countersInv s.params (some (pm + 1)) (some (countMiss mp p o')) = true := by
  have hcounters := e.counters
  rw [hadm.hasPm, hadm.hasMp] at hcounters
  exact countersInv_count p o' hcounters hadm.notFull

/-! ### Construction -/

/-- What R70 checks of a configuration that CFG does not refuse. -/
theorem cfgRefusal_eq_none {maxW : Nat} {v : Variant} {k m1 n m2 : Width} (h : cfgRefusal maxW v k m1 n m2 = none) :
    (∀ w ∈ usedWidths v k m1 m2, w.toNat ≤ maxW) ∧ (v.hasGT = true → n.toNat ≤ m1.toNat) := by
  unfold cfgRefusal at h
  split at h
  · cases h
  · rename_i hw
    split at h
    · cases h
    · rename_i hn
      exact ⟨by simpa using hw, by simpa using hn⟩

/-- The configuration CFG writes is an accepted one: 0 in the fields the variant does not use, the others as R70 checked them
(R72). -/
theorem acceptedCfgr_wf {p : Params} {v : Variant} {k m1 n m2 : Width} (h : cfgRefusal p.maxW v k m1 n m2 = none) :
    (acceptedCfgr v k m1 n m2).wf p = true := by
  obtain ⟨hw, hn⟩ := cfgRefusal_eq_none h
  cases v with
  | bimodal =>
    have hm2 : m2.toNat ≤ p.maxW := hw m2 (by simp [usedWidths])
    simp [acceptedCfgr, Cfgr.wf, Variant.hasBT, Variant.hasGT, Variant.hasCT, hm2]
  | gshare =>
    have hm1 : m1.toNat ≤ p.maxW := hw m1 (by simp [usedWidths])
    simp [acceptedCfgr, Cfgr.wf, Variant.hasBT, Variant.hasGT, Variant.hasCT, hm1, hn rfl]
  | hybrid =>
    have hwidths : k.toNat ≤ p.maxW ∧ m1.toNat ≤ p.maxW ∧ m2.toNat ≤ p.maxW := by simpa [usedWidths] using hw
    simp [acceptedCfgr, Cfgr.wf, Variant.hasBT, Variant.hasGT, Variant.hasCT, hwidths, hn rfl]

/-- Construction meets the engine's invariant (R71, R72). -/
theorem construct_engineInv {s : State} {v : Variant} {k m1 n m2 : Width}
    (h : cfgRefusal s.params.maxW v k m1 n m2 = none) : (s.construct v k m1 n m2).engineInv = true := by
  have hcounters : countersInv s.params (some 0) (some 0) = true := by simp [countersInv]
  have hhistory : historyInv true n (some 0) = true := by simp [historyInv]
  rw [State.engineInv_iff rfl]
  cases v with
  | bimodal => exact ⟨acceptedCfgr_wf h, rfl, rfl, rfl, rfl, hcounters⟩
  | gshare => exact ⟨acceptedCfgr_wf h, rfl, rfl, rfl, hhistory, hcounters⟩
  | hybrid => exact ⟨acceptedCfgr_wf h, rfl, rfl, rfl, hhistory, hcounters⟩

/-! ### What keeps the invariant -/

/-- A change of the engine's contents alone keeps the invariant if it keeps the engine's part of it. -/
theorem State.Inv.of_engine {s t : State} {c : Cfgr} (h : s.Inv) (hc : s.cfgr = some c) (hparams : t.params = s.params)
    (hphase : t.phase = s.phase) (hfault : t.fault = s.fault) (hcfgr : t.cfgr = s.cfgr) (hpending : t.pending = s.pending)
    (hengine : EngineInv c t) : t.Inv := by
  obtain ⟨hwf, hph, _, hpend⟩ := State.inv_iff.1 h
  refine State.inv_iff.2 ⟨hparams ▸ hwf, ?_, (State.engineInv_iff (hcfgr.trans hc)).2 hengine, ?_⟩
  · rwa [State.phaseInv_congr hphase hfault hcfgr]
  · rwa [State.pendingInv, hpending, hparams]

theorem State.Inv.respond {s : State} (h : s.Inv) (r : Response) : (s.respond r).Inv := h

/-- A sticky fault keeps the invariant. -/
theorem State.Inv.raise {s : State} (h : s.Inv) {k : FaultCode} (hk : k.sticky = true) : (s.raise k).Inv := by
  obtain ⟨hwf, _, hengine, hpend⟩ := State.inv_iff.1 h
  exact State.inv_iff.2 ⟨hwf, hk, hengine, hpend⟩

theorem StopsShort.inv {s t : State} (h : StopsShort s t) (hs : s.Inv) : t.Inv := by
  rcases h with ⟨_, rfl⟩ | ⟨_, _, hk, rfl⟩
  · exact hs.respond _
  · exact hs.raise hk

theorem State.Inv.hardwareReset {s : State} (h : s.Inv) : s.hardwareReset.Inv := by
  obtain ⟨hwf, _, _, hpend⟩ := State.inv_iff.1 h
  exact State.inv_iff.2 ⟨hwf, rfl, rfl, hpend⟩

/-- Taking the next input keeps the invariant. -/
theorem State.Inv.take {s : State} {i : HostInput} {rest : List HostInput} (h : s.Inv) (hp : s.pending = i :: rest) :
    State.Inv { s with pending := rest } := by
  obtain ⟨hwf, hph, hengine, hpend⟩ := State.inv_iff.1 h
  rw [State.pendingInv, hp, List.all_cons, Bool.and_eq_true] at hpend
  exact State.inv_iff.2 ⟨hwf, hph, hengine, hpend.2⟩

/-! ### Every command keeps the invariant -/

theorem execCfg_inv {v : VariantCode} {k m1 n m2 : Width} {s t : State} (h : execCfg v k m1 n m2 s = .next t)
    (hs : s.Inv) : t.Inv := by
  rcases execCfg_next h with h | ⟨var, hp, _, hok, rfl⟩
  · exact h.inv hs
  · obtain ⟨hwf, hph, _, hpend⟩ := State.inv_iff.1 hs
    have hfault : s.fault = .noFault := State.fault_of_phaseInv hph (by simp [hp])
    have hphase : (s.construct var k m1 n m2).phaseInv = true := by simp [State.phaseInv, hfault]
    have hconstructed : (s.construct var k m1 n m2).Inv :=
      State.inv_iff.2 ⟨hwf, hphase, construct_engineInv hok, hpend⟩
    exact hconstructed.respond .ok

theorem execBpu_inv {a : Nat} {o : BranchOutcome} {s t : State} (h : execBpu a o s = .next t) (hs : s.Inv) : t.Inv := by
  rcases execBpu_next h with h | ⟨c, pm, mp, bt, hadm, hbt, rfl⟩
  · exact h.inv hs
  · have e := hs.engine hadm.hasCfgr
    exact hs.of_engine hadm.hasCfgr rfl rfl rfl rfl rfl
      { e with
        bt := tableInv_write _ (hbt ▸ e.bt) (idxB_lt _ _)
        counters := e.count hadm _ _ }

theorem execGpu_inv {a : Nat} {o : BranchOutcome} {s t : State} (h : execGpu a o s = .next t) (hs : s.Inv) : t.Inv := by
  rcases execGpu_next h with h | ⟨c, pm, mp, gt, g, hadm, hgt, hg, rfl⟩
  · exact h.inv hs
  · have e := hs.engine hadm.hasCfgr
    exact hs.of_engine hadm.hasCfgr rfl rfl rfl rfl rfl
      { e with
        gt := tableInv_write _ (hgt ▸ e.gt) (e.idxG_lt hg a)
        ghr := historyInv_next o (hg ▸ e.ghr)
        counters := e.count hadm _ _ }

theorem execHpu_inv {a : Nat} {o : BranchOutcome} {s t : State} (h : execHpu a o s = .next t) (hs : s.Inv) : t.Inv := by
  rcases execHpu_next h with h | ⟨c, pm, mp, bt, gt, ct, g, p, hadm, hbt, hgt, hct, hg, _, rfl⟩
  · exact h.inv hs
  · have e := hs.engine hadm.hasCfgr
    have ebt := hbt ▸ e.bt
    have egt := hgt ▸ e.gt
    exact hs.of_engine hadm.hasCfgr rfl rfl rfl rfl rfl
      { cfgr := e.cfgr
        bt := tableInv_ite ebt (tableInv_write _ ebt (idxB_lt _ _))
        gt := tableInv_ite (tableInv_write _ egt (e.idxG_lt hg a)) egt
        ct := tableInv_write _ (hct ▸ e.ct) (idxC_lt _ _)
        ghr := historyInv_next o (hg ▸ e.ghr)
        counters := e.count hadm _ _ }

/-- Every command keeps the invariant. -/
theorem exec_inv {i : Instr} {s t : State} (h : exec i s = .next t) (hs : s.Inv) : t.Inv := by
  cases i with
  | cfg v k m1 n m2 => exact execCfg_inv h hs
  | bpu a o => exact execBpu_inv h hs
  | gpu a o => exact execGpu_inv h hs
  | hpu a o => exact execHpu_inv h hs
  | snap =>
    obtain ⟨r, _, rfl⟩ := execSnap_next h
    exact hs.respond r
  | rate =>
    obtain ⟨r, _, rfl⟩ := execRate_next h
    exact hs.respond r

/-! ### What a step can do to PHASE, FAULT and CFGR -/

/-- How every step ends: idle, by a hardware reset, or by a word, whose command ends as commands do or which stops short as
an illegal one. -/
theorem step_ends {s t : State} (h : step s = .next t) :
    (s.pending = [] ∧ t = s) ∨
    (s.pending = .reset :: t.pending ∧ t = State.hardwareReset { s with pending := t.pending }) ∨
    (∃ w, s.pending = .command w :: t.pending ∧
      ((∃ i, decode s.params w = .command i ∧ Ends i { s with pending := t.pending } t) ∨
        StopsShort { s with pending := t.pending } t)) := by
  rcases step_next h with hidle | ⟨rest, hp, rfl⟩ | ⟨w, rest, hp, hrun⟩
  · exact .inl hidle
  · exact .inr (.inl ⟨hp, rfl⟩)
  · have hends : (∃ i, decode s.params w = .command i ∧ Ends i { s with pending := rest } t) ∨
        StopsShort { s with pending := rest } t := by
      rcases hrun with ⟨i, hi, he⟩ | ⟨_, _, rfl⟩
      · exact .inl ⟨i, hi, exec_ends he⟩
      · exact .inr (illegalWord_stopsShort _)
    have hrest : rest = t.pending := by
      rcases hends with ⟨_, _, _, _, hpend, _⟩ | hshort
      · exact hpend.symm
      · exact hshort.pending_eq.symm
    subst hrest
    exact .inr (.inr ⟨w, hp, hends⟩)

/-- The transitions of PHASE and FAULT that a command can make (R31, R32). -/
theorem Ends.transition {i : Instr} {s t : State} (h : Ends i s t) :
    (t.phase = s.phase ∧ t.fault = s.fault) ∨
    (s.phase = .unconfigured ∧ t.phase = .running ∧ t.fault = s.fault ∧ t.responses = s.responses ++ [.ok]) ∨
    (s.phase ≠ .failed ∧ t.phase = .failed ∧ t.responses = s.responses ++ [.fault t.fault]) := by
  obtain ⟨r, hresp, _, _, hkept | ⟨hp, k, _, rfl, rfl⟩ | ⟨hp, ht, hf, rfl, _⟩⟩ := h
  · obtain ⟨hphase, hfault, _⟩ := hkept
    exact .inl ⟨hphase, hfault⟩
  · exact .inr (.inr ⟨hp, rfl, hresp⟩)
  · exact .inr (.inl ⟨hp, ht, hf, hresp⟩)

/-- A command that changes CFGR is a CFG accepted in UNCONFIGURED (R22). -/
theorem Ends.cfgr_eq_or_accepted {i : Instr} {s t : State} (h : Ends i s t) :
    t.cfgr = s.cfgr ∨
      (s.phase = .unconfigured ∧ t.responses = s.responses ++ [.ok] ∧ ∃ v k m1 n m2, i = .cfg v k m1 n m2) := by
  obtain ⟨r, hresp, _, _, hkept | ⟨_, k, _, rfl, _⟩ | ⟨hp, _, _, rfl, hcfg⟩⟩ := h
  · obtain ⟨_, _, hcfgr, _⟩ := hkept
    exact .inl hcfgr
  · exact .inl rfl
  · exact .inr ⟨hp, hresp, hcfg⟩

/-! ### What a command can do to PM and MP -/

/-- A predict command of outcome `o` completed: it answered a prediction and counted it (R29, R30). -/
def CountsPrediction (o : BranchOutcome) (s t : State) : Prop :=
  ∃ p pm mp, t.responses = s.responses ++ [.pred p] ∧ s.pm = some pm ∧ s.mp = some mp ∧ t.pm = some (pm + 1) ∧
    t.mp = some (countMiss mp p o)

/-- No prediction was answered, and PM and MP are as they were unless a CFG was accepted. -/
def CountsNothing (s t : State) : Prop :=
  ∃ r, t.responses = s.responses ++ [r] ∧ (∀ p, r ≠ .pred p) ∧ (r = .ok ∨ (t.pm = s.pm ∧ t.mp = s.mp))

theorem StopsShort.countsNothing {s t : State} (h : StopsShort s t) : CountsNothing s t := by
  rcases h with ⟨_, rfl⟩ | ⟨_, k, _, rfl⟩
  · exact ⟨.failed s.fault, rfl, by simp, .inr ⟨rfl, rfl⟩⟩
  · exact ⟨.fault k, rfl, by simp, .inr ⟨rfl, rfl⟩⟩

theorem ReadOutResponse.countsNothing {s : State} {r : Response} (h : ReadOutResponse s r) :
    CountsNothing s (s.respond r) := by
  refine ⟨r, rfl, ?_, .inr ⟨rfl, rfl⟩⟩
  rcases h with ⟨_, rfl⟩ | ⟨_, rfl⟩ | ⟨_, _, rfl⟩ | ⟨_, _, _, _, _, ⟨_, _, _, _, rfl⟩ | ⟨_, rfl⟩⟩ <;> simp

theorem execBpu_counts {a : Nat} {o : BranchOutcome} {s t : State} (h : execBpu a o s = .next t) :
    CountsPrediction o s t ∨ CountsNothing s t := by
  rcases execBpu_next h with h | ⟨c, pm, mp, _, hadm, _, rfl⟩
  · exact .inr h.countsNothing
  · exact .inl ⟨_, pm, mp, rfl, hadm.hasPm, hadm.hasMp, rfl, rfl⟩

theorem execGpu_counts {a : Nat} {o : BranchOutcome} {s t : State} (h : execGpu a o s = .next t) :
    CountsPrediction o s t ∨ CountsNothing s t := by
  rcases execGpu_next h with h | ⟨c, pm, mp, _, _, hadm, _, _, rfl⟩
  · exact .inr h.countsNothing
  · exact .inl ⟨_, pm, mp, rfl, hadm.hasPm, hadm.hasMp, rfl, rfl⟩

theorem execHpu_counts {a : Nat} {o : BranchOutcome} {s t : State} (h : execHpu a o s = .next t) :
    CountsPrediction o s t ∨ CountsNothing s t := by
  rcases execHpu_next h with h | ⟨c, pm, mp, _, _, _, _, _, hadm, _, _, _, _, _, rfl⟩
  · exact .inr h.countsNothing
  · exact .inl ⟨_, pm, mp, rfl, hadm.hasPm, hadm.hasMp, rfl, rfl⟩

/-- Every command either is a predict command that counts its prediction, or counts nothing. -/
theorem exec_counts {i : Instr} {s t : State} (h : exec i s = .next t) :
    (∃ a o, (i = .bpu a o ∨ i = .gpu a o ∨ i = .hpu a o) ∧ CountsPrediction o s t) ∨ CountsNothing s t := by
  cases i with
  | cfg v k m1 n m2 =>
    rcases execCfg_next h with h | ⟨_, _, _, _, rfl⟩
    · exact .inr h.countsNothing
    · exact .inr ⟨.ok, rfl, by simp, .inl rfl⟩
  | bpu a o => exact (execBpu_counts h).imp_left fun hc => ⟨a, o, .inl rfl, hc⟩
  | gpu a o => exact (execGpu_counts h).imp_left fun hc => ⟨a, o, .inr (.inl rfl), hc⟩
  | hpu a o => exact (execHpu_counts h).imp_left fun hc => ⟨a, o, .inr (.inr rfl), hc⟩
  | snap =>
    obtain ⟨_, hr, rfl⟩ := execSnap_next h
    exact .inr hr.countsNothing
  | rate =>
    obtain ⟨_, hr, rfl⟩ := execRate_next h
    exact .inr hr.countsNothing

/-! ### The settled statements -/

/-- Settles O3: the invariant is computed on the one reset state. -/
theorem resetMeetsInvariant : Obligations.ResetMeetsInvariant := by
  unfold Obligations.ResetMeetsInvariant
  decide

/-- Settles O4: taking an input keeps the invariant, and so do the reset, every command and an illegal word after it. -/
theorem stepKeepsInvariant : Obligations.StepKeepsInvariant := by
  intro s t hs h
  rcases step_next h with ⟨_, rfl⟩ | ⟨rest, hp, rfl⟩ | ⟨w, rest, hp, ⟨i, _, he⟩ | ⟨_, _, rfl⟩⟩
  · exact hs
  · exact (hs.take hp).hardwareReset
  · exact exec_inv he (hs.take hp)
  · exact (illegalWord_stopsShort _).inv (hs.take hp)

/-- Settles O25: a CFG stops short, which touches PHASE and FAULT alone, or constructs, which leaves FAULT. -/
theorem cfgFrame : Obligations.CfgFrame := by
  intro s t v k m1 n m2 h
  obtain ⟨r, hresp, hpending, hparams, _⟩ := exec_ends h
  refine ⟨hparams, hpending, ⟨r, hresp⟩, ?_⟩
  rcases execCfg_next h with hshort | ⟨_, hp, _, _, rfl⟩
  · exact .inr hshort.frame
  · exact .inl ⟨hp, rfl, rfl, rfl⟩

/-- Settles O35: a command counts its prediction or counts nothing (`exec_counts`), and its one response tells which. -/
theorem countersCountPredictions : Obligations.CountersCountPredictions := by
  constructor
  · intro s t i p h hpred
    rcases exec_counts h with ⟨a, o, hi, p', pm, mp, hresp, hpm, hmp, hpm', hmp'⟩ | ⟨r, hresp, hne, _⟩
    · obtain rfl : p = p' := by simpa [hpred] using hresp
      exact ⟨a, o, pm, mp, hi, hpm, hmp, hpm', hmp'⟩
    · exact absurd (by simpa [hpred] using hresp.symm) (hne p)
  · intro s t i h hpred hok
    rcases exec_counts h with ⟨_, _, _, p, _, _, hresp, _⟩ | ⟨r, hresp, _, rfl | hkept⟩
    · exact absurd hresp (hpred p)
    · exact absurd hresp hok
    · exact hkept

/-- Settles O52: a command word makes the transitions of `Ends.transition`, a hardware reset the last, an idle step none. -/
theorem phaseAndFaultTransitions : Obligations.PhaseAndFaultTransitions := by
  refine ⟨fun s hs hp => ?_, fun s t h => ?_⟩
  · obtain ⟨_, hphase, _⟩ := State.inv_iff.1 hs
    exact State.fault_of_phaseInv hphase hp
  · rcases step_ends h with ⟨_, rfl⟩ | ⟨hp, ht⟩ | ⟨w, _, hends⟩
    · exact .inl ⟨rfl, rfl⟩
    · exact .inr (.inr (.inr ⟨hp, by rw [ht]; exact ⟨rfl, rfl⟩⟩))
    · obtain ⟨i, hends⟩ : ∃ i, Ends i { s with pending := t.pending } t := by
        rcases hends with ⟨i, _, hi⟩ | hshort
        · exact ⟨i, hi⟩
        · exact ⟨.snap, hshort.ends⟩
      rcases hends.transition with hkept | hok | hfault
      · exact .inl hkept
      · exact .inr (.inl hok)
      · exact .inr (.inr (.inl hfault))

/-- Settles O53: of the ways a step ends, only a hardware reset and an accepted CFG write CFGR. -/
theorem configurationIsImmutable : Obligations.ConfigurationIsImmutable := by
  intro s t h hne
  rcases step_ends h with ⟨_, rfl⟩ | ⟨hp, ht⟩ | ⟨w, hp, ⟨i, hi, hends⟩ | hshort⟩
  · exact absurd rfl hne
  · exact .inl ⟨hp, by rw [ht]; rfl⟩
  · rcases hends.cfgr_eq_or_accepted with hkept | ⟨hphase, hresp, v, k, m1, n, m2, rfl⟩
    · exact absurd hkept hne
    · exact .inr ⟨w, v, k, m1, n, m2, hp, hi, hphase, hresp⟩
  · obtain ⟨_, hcfgr, _⟩ := hshort.frame
    exact absurd hcfgr hne

end Sys2Proof.Machine
end

section
/-! SUPPORT. What a predict command sees of its address: the table indices and nothing else; with it the settled statements
about table access, address bits [1:0], aliasing and the order of commands (spec/20_memory.md R41, R43, R45, R50). -/

namespace Sys2Proof.Machine

/-! ### What an index sees of the address -/

/-- Clearing address bits [1:0] leaves the word address. -/
theorem clearLowBits_shiftRight (a : Nat) : (4 * (a / 4)) >>> 2 = a >>> 2 := by
  simp only [Nat.shiftRight_eq_div_pow]
  omega

/-- The gshare index sees of its address the word address alone. -/
theorem idxG_congr {a b : Nat} (h : a >>> 2 = b >>> 2) (m1 n : Width) (g : Nat) : idxG a m1 n g = idxG b m1 n g := by
  have hpc : pcBits a m1 = pcBits b m1 := wordIndex_congr h _
  simp [idxG, hpc]

/-! ### What a predict command sees of the address -/

/-- The checks pass their body CFGR as it stands: bodies that agree on it give the same command. -/
theorem predictWith_congr {v : Variant} {o : BranchOutcome} {s : State} {body body' : Cfgr → Nat → Nat → Result}
    (h : ∀ c pm mp, s.cfgr = some c → body c pm mp = body' c pm mp) :
    predictWith v o s body = predictWith v o s body' := by
  unfold predictWith
  split
  · rfl
  · rfl
  · split
    · rename_i c pm mp hc _ _
      rw [h c pm mp hc]
    · rfl

/-- BPU sees of its address the bimodal index alone. -/
theorem execBpu_congr {a b : Nat} {s : State} (o : BranchOutcome)
    (hb : ∀ c, s.cfgr = some c → idxB a c.m2 = idxB b c.m2) : execBpu a o s = execBpu b o s := by
  refine predictWith_congr fun c pm mp hc => ?_
  rw [hb c hc]

/-- GPU sees of its address the gshare index under the current history alone. -/
theorem execGpu_congr {a b : Nat} {s : State} (o : BranchOutcome)
    (hg : ∀ c, s.cfgr = some c → ∀ g, s.ghr = some g → idxG a c.m1 c.n g = idxG b c.m1 c.n g) :
    execGpu a o s = execGpu b o s := by
  refine predictWith_congr fun c pm mp hc => ?_
  split
  · rename_i gt g _ hghr
    rw [hg c hc g hghr]
  · rfl

/-- HPU sees of its address its three indices alone. -/
theorem execHpu_congr {a b : Nat} {s : State} (o : BranchOutcome)
    (hb : ∀ c, s.cfgr = some c → idxB a c.m2 = idxB b c.m2)
    (hg : ∀ c, s.cfgr = some c → ∀ g, s.ghr = some g → idxG a c.m1 c.n g = idxG b c.m1 c.n g)
    (hk : ∀ c, s.cfgr = some c → idxC a c.k = idxC b c.k) : execHpu a o s = execHpu b o s := by
  refine predictWith_congr fun c pm mp hc => ?_
  rw [hb c hc, hk c hc]
  split
  · rename_i bt gt ct g _ _ _ hghr
    rw [hg c hc g hghr]
  · rfl

/-- There is at most one configuration, so what holds of it holds of every one. -/
theorem forall_cfgr {s : State} {c : Cfgr} {P : Cfgr → Prop} (hc : s.cfgr = some c) (h : P c) :
    ∀ c', s.cfgr = some c' → P c' := by
  intro c' hc'
  obtain rfl : c = c' := Option.some.inj (hc.symm.trans hc')
  exact h

/-! ### The settled statements -/

/-- Settles O21: the bimodal and chooser indices are remainders; the gshare index needs the history to fit its N bits and N
to be at most M1, which the invariant says. -/
theorem indicesInRange : Obligations.IndicesInRange := by
  intro s c a hs hc
  exact ⟨idxB_lt a c.m2, idxC_lt a c.k, fun g hg => (hs.engine hc).idxG_lt hg a⟩

/-- Settles O41: the two addresses have one word address, so the same indices, and the commands see nothing else. -/
theorem lowAddressBitsIgnored : Obligations.LowAddressBitsIgnored := by
  intro s a o
  have hword : a >>> 2 = (4 * (a / 4)) >>> 2 := (clearLowBits_shiftRight a).symm
  have hb : ∀ c, s.cfgr = some c → idxB a c.m2 = idxB (4 * (a / 4)) c.m2 := fun c _ => wordIndex_congr hword _
  have hg : ∀ c, s.cfgr = some c → ∀ g, s.ghr = some g → idxG a c.m1 c.n g = idxG (4 * (a / 4)) c.m1 c.n g :=
    fun c _ g _ => idxG_congr hword c.m1 c.n g
  have hk : ∀ c, s.cfgr = some c → idxC a c.k = idxC (4 * (a / 4)) c.k := fun c _ => wordIndex_congr hword _
  exact ⟨execBpu_congr o hb, execGpu_congr o hg, execHpu_congr o hb hg hk⟩

/-- Settles O42: the commands see of their address the indices alone, which are formed with the one configuration there is. -/
theorem aliasedAddressesActAlike : Obligations.AliasedAddressesActAlike := by
  intro s a b o c hc
  exact ⟨fun hb => execBpu_congr o (forall_cfgr hc hb), fun hg => execGpu_congr o (forall_cfgr hc hg),
    fun hb hg hk => execHpu_congr o (forall_cfgr hc hb) (forall_cfgr hc hg) (forall_cfgr hc hk)⟩

/-- Settles O6: the step takes the word off `pending`, and running it looks up the decoded command; decoding reads the
parameters alone, which taking a word leaves. -/
theorem stepRunsDecodedCommand : Obligations.StepRunsDecodedCommand := by
  intro s w rest i hp hdecode
  calc step s = runWord w { s with pending := rest } := by simp [step, hp]
    _ = exec i { s with pending := rest } := by simp [runWord, hdecode]

end Sys2Proof.Machine
end

section
/-! SUPPORT. The command word: what a bit field says of the number, what each row of the decoder reads, and with them the two
directions between words and commands and the other settled statements about the encoding (spec/30_encoding.md R52 to R60,
R62). -/

namespace Sys2Proof

/-! ### Bit fields -/

/-- The topmost field of a number is what is left of it above the field's lowest bit. -/
theorem bits_eq_div {v hi lo : Nat} (hlo : lo ≤ hi + 1) (h : v < 2 ^ (hi + 1)) : bits v hi lo = v / 2 ^ lo := by
  rw [bits, Nat.shiftRight_eq_div_pow]
  apply Nat.mod_eq_of_lt
  apply Nat.div_lt_of_lt_mul
  rwa [← Nat.pow_add, Nat.add_sub_cancel' hlo]

/-- The topmost field of a number is 0 exactly when the number ends below it. -/
theorem bits_eq_zero_iff {v hi lo : Nat} (hlo : lo ≤ hi + 1) (h : v < 2 ^ (hi + 1)) : bits v hi lo = 0 ↔ v < 2 ^ lo := by
  rw [bits_eq_div hlo h, Nat.div_eq_zero_iff_lt (Nat.two_pow_pos lo)]

/-- A field of two bits is not 0 exactly when one of them is 1. -/
theorem bits_pair_ne_zero_iff (v lo : Nat) :
    bits v (lo + 1) lo ≠ 0 ↔ v.testBit lo = true ∨ v.testBit (lo + 1) = true := by
  have hwidth : lo + 1 + 1 - lo = 2 := by omega
  simp only [bits, hwidth, Nat.testBit_eq_decide_div_mod_eq, Nat.shiftRight_eq_div_pow, Nat.pow_succ, ← Nat.div_div_eq_div_mul,
    decide_eq_true_eq]
  omega

/-- A number reaches `2 ^ n` exactly when some bit from `n` up is 1. -/
theorem two_pow_le_iff_testBit {v n : Nat} : 2 ^ n ≤ v ↔ ∃ b, v.testBit b = true ∧ n ≤ b := by
  constructor
  · intro h
    obtain ⟨b, hb, hbit⟩ := Nat.exists_ge_and_testBit_of_ge_two_pow h
    exact ⟨b, hbit, hb⟩
  · rintro ⟨b, hbit, hb⟩
    exact (Nat.pow_le_pow_right (by decide) hb).trans (Nat.ge_two_pow_of_testBit hbit)

theorem bits_opcode (w : Nat) : bits w 3 0 = w % 16 := rfl

/-! ### The width of a word -/

theorem Params.forty_le_cmdW (p : Params) : 40 ≤ p.cmdW := by
  unfold Params.cmdW
  omega

theorem Params.addrW_le_cmdW (p : Params) : 8 + p.addrW ≤ p.cmdW := by
  unfold Params.cmdW
  omega

/-- The bits from `lo` up of a word are 0 exactly when it ends below them. -/
theorem bits_top_ne_zero_iff {p : Params} {w lo : Nat} (hw : w < 2 ^ p.cmdW) (hlo : lo ≤ p.cmdW) :
    bits w (p.cmdW - 1) lo ≠ 0 ↔ 2 ^ lo ≤ w := by
  have htop : p.cmdW - 1 + 1 = p.cmdW := by have := p.forty_le_cmdW; omega
  rw [ne_eq, bits_eq_zero_iff (htop ▸ hlo) (htop ▸ hw), not_lt]

/-! ### The codes of outcomes and variants -/

theorem outcomeOf_code (o : BranchOutcome) : outcomeOf o.code = o := by cases o <;> rfl

/-- The code of a decoded outcome is the one read, but for 0b11, which is written 0b10 (R55). -/
theorem code_outcomeOf {sub : Nat} (h : sub < 4) : (outcomeOf sub).code = min sub 2 := by
  revert sub
  decide

theorem variantOf_code (v : VariantCode) : variantOf v.code = v := by cases v <;> rfl

theorem code_variantOf {sub : Nat} (h : sub < 4) : (variantOf sub).code = sub := by
  revert sub
  decide

/-! ### The rows of the decoder -/

/-- The opcodes and commands of the predict rows (R54). -/
inductive PredictRow : Nat → (Nat → BranchOutcome → Instr) → Prop where
  | bpu : PredictRow 2 .bpu
  | gpu : PredictRow 3 .gpu
  | hpu : PredictRow 4 .hpu

/-- The opcodes and commands of the rows without operands (R54). -/
inductive NoOperandRow : Nat → Instr → Prop where
  | snap : NoOperandRow 5 .snap
  | rate : NoOperandRow 6 .rate

theorem PredictRow.opcode_range {op : Nat} {mk : Nat → BranchOutcome → Instr} (h : PredictRow op mk) :
    op = 2 ∨ op = 3 ∨ op = 4 := by
  cases h <;> decide

theorem NoOperandRow.opcode_range {op : Nat} {i : Instr} (h : NoOperandRow op i) : op = 5 ∨ op = 6 := by
  cases h <;> decide

theorem PredictRow.encode_eq {op : Nat} {mk : Nat → BranchOutcome → Instr} (h : PredictRow op mk) (a : Nat)
    (o : BranchOutcome) : encode (mk a o) = encodePredict op a o := by
  cases h <;> rfl

theorem PredictRow.wellFormed_eq {op : Nat} {mk : Nat → BranchOutcome → Instr} (h : PredictRow op mk) (p : Params) (a : Nat)
    (o : BranchOutcome) : (mk a o).wellFormed p = decide (a < 2 ^ p.addrW) := by
  cases h <;> rfl

section
variable {p : Params} {w : Nat} (hw : w < 2 ^ p.cmdW)
include hw

theorem decode_reservedSub (h : bits w 7 6 ≠ 0) : decode p w = .illegal .reservedBit := by
  simp [decode, Nat.not_le.2 hw, h]

variable (h76 : bits w 7 6 = 0)
include h76

theorem decode_cfgRow (hop : bits w 3 0 = 1) : decode p w = decodeCfg p w := by
  simp [decode, Nat.not_le.2 hw, h76, hop]

theorem decode_predictRow {mk : Nat → BranchOutcome → Instr} (hop : PredictRow (bits w 3 0) mk) :
    decode p w = decodePredict mk p w := by
  generalize hb : bits w 3 0 = op at hop
  cases hop <;> simp [decode, Nat.not_le.2 hw, h76, hb]

theorem decode_noOperandRow {i : Instr} (hop : NoOperandRow (bits w 3 0) i) : decode p w = decodeNoOperand i p w := by
  generalize hb : bits w 3 0 = op at hop
  cases hop <;> simp [decode, Nat.not_le.2 hw, h76, hb]

theorem decode_reservedOpcode (hop : bits w 3 0 = 0 ∨ 7 ≤ bits w 3 0) : decode p w = .illegal .reservedOpcode := by
  simp only [decode, Nat.not_le.2 hw, h76, if_false, ne_eq, not_true_eq_false]
  split
  case h_7 => rfl
  all_goals omega

end

/-- Every opcode is that of one row, or reserved (R54). -/
theorem opcode_cases (op : Nat) :
    (op = 0 ∨ 7 ≤ op) ∨ op = 1 ∨ (∃ mk, PredictRow op mk) ∨ ∃ i, NoOperandRow op i := by
  by_cases hres : op = 0 ∨ 7 ≤ op
  · exact .inl hres
  · obtain rfl | rfl | rfl | rfl | rfl | rfl : op = 1 ∨ op = 2 ∨ op = 3 ∨ op = 4 ∨ op = 5 ∨ op = 6 := by omega
    · exact .inr (.inl rfl)
    · exact .inr (.inr (.inl ⟨_, .bpu⟩))
    · exact .inr (.inr (.inl ⟨_, .gpu⟩))
    · exact .inr (.inr (.inl ⟨_, .hpu⟩))
    · exact .inr (.inr (.inr ⟨_, .snap⟩))
    · exact .inr (.inr (.inr ⟨_, .rate⟩))

/-- All the ways a word can decode to a command. -/
theorem decode_eq_command {p : Params} {w : Nat} {i : Instr} (h : decode p w = .command i) :
    w < 2 ^ p.cmdW ∧ bits w 7 6 = 0 ∧
      ((bits w 3 0 = 1 ∧ decodeCfg p w = .command i) ∨
        (∃ mk, PredictRow (bits w 3 0) mk ∧ decodePredict mk p w = .command i) ∨
        (∃ j, NoOperandRow (bits w 3 0) j ∧ decodeNoOperand j p w = .command i)) := by
  by_cases hw : w < 2 ^ p.cmdW
  · by_cases h76 : bits w 7 6 = 0
    · refine ⟨hw, h76, ?_⟩
      rcases opcode_cases (bits w 3 0) with hop | hop | ⟨mk, hop⟩ | ⟨j, hop⟩
      · rw [decode_reservedOpcode hw h76 hop] at h
        cases h
      · exact .inl ⟨hop, decode_cfgRow hw h76 hop ▸ h⟩
      · exact .inr (.inl ⟨mk, hop, decode_predictRow hw h76 hop ▸ h⟩)
      · exact .inr (.inr ⟨j, hop, decode_noOperandRow hw h76 hop ▸ h⟩)
    · rw [decode_reservedSub hw h76] at h
      cases h
  · simp [decode, Nat.not_lt.1 hw] at h

/-! ### The payloads -/

/-- The reserved bits of a CFG word (R56), above `sub`. -/
def CfgReserved (w : Nat) : Prop :=
  bits w 15 14 ≠ 0 ∨ bits w 23 22 ≠ 0 ∨ bits w 31 30 ≠ 0 ∨ 2 ^ 38 ≤ w

/-- The command a CFG word without reserved bits stands for (R56, R57). -/
def cfgOf (w : Nat) : Instr :=
  .cfg (variantOf (bits w 5 4)) (BitVec.ofNat 6 (bits w 13 8)) (BitVec.ofNat 6 (bits w 21 16))
    (BitVec.ofNat 6 (bits w 29 24)) (BitVec.ofNat 6 (bits w 37 32))

section
variable {p : Params} {w : Nat} (hw : w < 2 ^ p.cmdW)
include hw

theorem cfgReserved_iff :
    (bits w 15 14 ≠ 0 ∨ bits w 23 22 ≠ 0 ∨ bits w 31 30 ≠ 0 ∨ bits w (p.cmdW - 1) 38 ≠ 0) ↔ CfgReserved w := by
  rw [CfgReserved, bits_top_ne_zero_iff hw (by have := p.forty_le_cmdW; omega)]

theorem decodeCfg_reserved (h : CfgReserved w) : decodeCfg p w = .illegal .reservedBit :=
  if_pos ((cfgReserved_iff hw).2 h)

theorem decodeCfg_legal (h : ¬ CfgReserved w) : decodeCfg p w = .command (cfgOf w) :=
  if_neg fun h' => h ((cfgReserved_iff hw).1 h')

theorem decodeCfg_eq_command {i : Instr} (h : decodeCfg p w = .command i) : ¬ CfgReserved w ∧ cfgOf w = i := by
  by_cases hres : CfgReserved w
  · simp [decodeCfg_reserved hw hres] at h
  · exact ⟨hres, by simpa [decodeCfg_legal hw hres] using h⟩

/-- A bit above the address can only be 1 where ADDR_W < 32 leaves bits there (R58). -/
theorem predictReserved_iff : (p.addrW < 32 ∧ bits w 39 (8 + p.addrW) ≠ 0) ↔ 2 ^ (8 + p.addrW) ≤ w := by
  by_cases h32 : p.addrW < 32
  · have hcmdW : p.cmdW = 40 := by simp [Params.cmdW, h32.le]
    have htop := bits_top_ne_zero_iff hw p.addrW_le_cmdW
    rw [hcmdW] at htop
    simpa [h32] using htop
  · have hcmdW : p.cmdW = 8 + p.addrW := by simp [Params.cmdW, Nat.not_lt.1 h32]
    simpa [h32] using hcmdW ▸ hw

theorem decodePredict_reserved (mk : Nat → BranchOutcome → Instr) (h : 2 ^ (8 + p.addrW) ≤ w) :
    decodePredict mk p w = .illegal .reservedBit :=
  if_pos ((predictReserved_iff hw).2 h)

theorem decodePredict_legal (mk : Nat → BranchOutcome → Instr) (h : w < 2 ^ (8 + p.addrW)) :
    decodePredict mk p w = .command (mk (w / 2 ^ 8) (outcomeOf (bits w 5 4))) := by
  have haddr : bits w (8 + p.addrW - 1) 8 = w / 2 ^ 8 := by
    have htop : 8 + p.addrW - 1 + 1 = 8 + p.addrW := by omega
    exact bits_eq_div (by omega) (htop ▸ h)
  rw [decodePredict, if_neg fun h' => Nat.not_le.2 h ((predictReserved_iff hw).1 h'), haddr]

theorem decodePredict_eq_command {mk : Nat → BranchOutcome → Instr} {i : Instr} (h : decodePredict mk p w = .command i) :
    w < 2 ^ (8 + p.addrW) ∧ mk (w / 2 ^ 8) (outcomeOf (bits w 5 4)) = i := by
  by_cases hres : 2 ^ (8 + p.addrW) ≤ w
  · simp [decodePredict_reserved hw mk hres] at h
  · have hlow := Nat.not_le.1 hres
    exact ⟨hlow, by simpa [decodePredict_legal hw mk hlow] using h⟩

theorem noOperandReserved_iff : bits w (p.cmdW - 1) 4 ≠ 0 ↔ 2 ^ 4 ≤ w :=
  bits_top_ne_zero_iff hw (by have := p.forty_le_cmdW; omega)

theorem decodeNoOperand_reserved (i : Instr) (h : 2 ^ 4 ≤ w) : decodeNoOperand i p w = .illegal .reservedBit :=
  if_pos ((noOperandReserved_iff hw).2 h)

theorem decodeNoOperand_legal (i : Instr) (h : w < 2 ^ 4) : decodeNoOperand i p w = .command i :=
  if_neg fun h' => Nat.not_le.2 h ((noOperandReserved_iff hw).1 h')

theorem decodeNoOperand_eq_command {i j : Instr} (h : decodeNoOperand j p w = .command i) : w < 2 ^ 4 ∧ j = i := by
  by_cases hres : 2 ^ 4 ≤ w
  · simp [decodeNoOperand_reserved hw j hres] at h
  · have hlow := Nat.not_le.1 hres
    exact ⟨hlow, by simpa [decodeNoOperand_legal hw j hlow] using h⟩

end

/-! ### From commands to words -/

/-- A predict word, field by field: each outcome code is read as it stands, 0b11 too (R55, R58). -/
theorem decode_predictWord {p : Params} {op a sub : Nat} {mk : Nat → BranchOutcome → Instr} (hop : PredictRow op mk)
    (hsub : sub < 4) (ha : a < 2 ^ p.addrW) :
    decode p (op + sub * 2 ^ 4 + a * 2 ^ 8) = .command (mk a (outcomeOf sub)) := by
  have hrange := hop.opcode_range
  generalize hword : op + sub * 2 ^ 4 + a * 2 ^ 8 = w
  have hfields : bits w 3 0 = op ∧ bits w 5 4 = sub ∧ bits w 7 6 = 0 ∧ w / 2 ^ 8 = a := by
    simp only [bits, Nat.shiftRight_eq_div_pow]
    omega
  obtain ⟨rfl, rfl, h76, rfl⟩ := hfields
  have hlow : w < 2 ^ (8 + p.addrW) := by
    rw [Nat.pow_add]
    omega
  have hw : w < 2 ^ p.cmdW := hlow.trans_le (Nat.pow_le_pow_right (by decide) p.addrW_le_cmdW)
  rw [decode_predictRow hw h76 hop, decodePredict_legal hw mk hlow]

theorem decode_encode_predict {p : Params} {op a : Nat} {mk : Nat → BranchOutcome → Instr} (hop : PredictRow op mk)
    (o : BranchOutcome) (hi : (mk a o).wellFormed p = true) : decode p (encode (mk a o)) = .command (mk a o) := by
  have ha : a < 2 ^ p.addrW := by simpa [hop.wellFormed_eq] using hi
  have ho : o.code < 4 := by cases o <;> decide
  rw [hop.encode_eq, encodePredict, decode_predictWord hop ho ha, outcomeOf_code]

theorem lt_two_pow_cmdW {w n : Nat} (p : Params) (h : w < 2 ^ n) (hn : n ≤ 40) : w < 2 ^ p.cmdW :=
  h.trans_le (Nat.pow_le_pow_right (by decide) (hn.trans p.forty_le_cmdW))

/-- The fields of a CFG word are where the decoder reads them, and the bits between and above them are 0 (R56). -/
theorem cfgOf_encode (v : VariantCode) (k m1 n m2 : Width) :
    ¬ CfgReserved (encode (.cfg v k m1 n m2)) ∧ cfgOf (encode (.cfg v k m1 n m2)) = .cfg v k m1 n m2 := by
  have hv : v.code < 4 := by cases v <;> decide
  have hfields : ∀ w, encode (.cfg v k m1 n m2) = w → ¬ CfgReserved w ∧ bits w 5 4 = v.code ∧ bits w 13 8 = k.toNat ∧
      bits w 21 16 = m1.toNat ∧ bits w 29 24 = n.toNat ∧ bits w 37 32 = m2.toNat := by
    intro w hw
    simp only [encode] at hw
    simp only [CfgReserved, bits, Nat.shiftRight_eq_div_pow]
    omega
  obtain ⟨hres, h5, h13, h21, h29, h37⟩ := hfields _ rfl
  exact ⟨hres, by simp only [cfgOf, h5, h13, h21, h29, h37, variantOf_code, BitVec.ofNat_toNat, BitVec.setWidth_eq]⟩

theorem decode_encode_cfg (p : Params) (v : VariantCode) (k m1 n m2 : Width) :
    decode p (encode (.cfg v k m1 n m2)) = .command (.cfg v k m1 n m2) := by
  obtain ⟨hres, hcfg⟩ := cfgOf_encode v k m1 n m2
  obtain ⟨hop, h76⟩ := Laws.OpcodeField.cfg v k m1 n m2
  have hw : encode (.cfg v k m1 n m2) < 2 ^ p.cmdW :=
    lt_two_pow_cmdW p (Nat.not_le.1 fun h => hres (.inr (.inr (.inr h)))) (by decide)
  rw [decode_cfgRow hw h76 hop, decodeCfg_legal hw hres, hcfg]

theorem decode_encode_noOperand {op : Nat} {i : Instr} (p : Params) (hop : NoOperandRow op i) :
    decode p (encode i) = .command i := by
  have hencode : encode i = op ∧ op < 2 ^ 4 ∧ bits op 3 0 = op ∧ bits op 7 6 = 0 := by cases hop <;> decide
  obtain ⟨rfl, hlow, hop', h76⟩ := hencode
  have hw := lt_two_pow_cmdW p hlow (by decide)
  rw [decode_noOperandRow hw h76 (hop'.symm ▸ hop), decodeNoOperand_legal hw i hlow]

/-! ### From words to commands -/

/-- A CFG word without reserved bits is the word of the command it stands for (R56). -/
theorem encode_cfgOf {w : Nat} (hop : bits w 3 0 = 1) (h76 : bits w 7 6 = 0) (hres : ¬ CfgReserved w) :
    encode (cfgOf w) = w := by
  have hsub : bits w 5 4 < 4 := Nat.mod_lt _ (by decide)
  simp only [encode, cfgOf, code_variantOf hsub, BitVec.toNat_ofNat]
  simp only [CfgReserved, bits, Nat.shiftRight_eq_div_pow] at hop h76 hres ⊢
  omega

/-- A predict word is the word of the command it stands for, but for 0b11, whose command is written with 0b10 (R55). -/
theorem encode_predict {w : Nat} {mk : Nat → BranchOutcome → Instr} (hop : PredictRow (bits w 3 0) mk)
    (h76 : bits w 7 6 = 0) :
    encode (mk (w / 2 ^ 8) (outcomeOf (bits w 5 4))) = w ∨
      bits w 5 4 = 3 ∧ encode (mk (w / 2 ^ 8) (outcomeOf (bits w 5 4))) + 2 ^ 4 = w := by
  have hsub : bits w 5 4 < 4 := Nat.mod_lt _ (by decide)
  rw [hop.encode_eq, encodePredict, code_outcomeOf hsub]
  simp only [bits, Nat.shiftRight_eq_div_pow] at h76 ⊢
  omega

theorem encode_noOperand {w : Nat} {i : Instr} (hop : NoOperandRow (bits w 3 0) i) (h : w < 2 ^ 4) :
    encode i = w ∧ ∀ p, i.wellFormed p = true := by
  have hw : bits w 3 0 = w := Nat.mod_eq_of_lt h
  rw [hw] at hop
  cases hop <;> exact ⟨rfl, fun _ => rfl⟩

/-! ### Which words are illegal -/

/-- The reserved bits of a CFG word, bit by bit (R56). -/
theorem cfgReserved_iff_testBit (w : Nat) :
    CfgReserved w ↔
      ∃ b, w.testBit b = true ∧ (b = 14 ∨ b = 15 ∨ b = 22 ∨ b = 23 ∨ b = 30 ∨ b = 31 ∨ 38 ≤ b) := by
  rw [CfgReserved, bits_pair_ne_zero_iff, bits_pair_ne_zero_iff, bits_pair_ne_zero_iff, two_pow_le_iff_testBit]
  constructor
  · rintro ((h | h) | (h | h) | (h | h) | ⟨b, h, hb⟩)
    all_goals exact ⟨_, h, by omega⟩
  · rintro ⟨b, h, rfl | rfl | rfl | rfl | rfl | rfl | hb⟩
    · exact .inl (.inl h)
    · exact .inl (.inr h)
    · exact .inr (.inl (.inl h))
    · exact .inr (.inl (.inr h))
    · exact .inr (.inr (.inl (.inl h)))
    · exact .inr (.inr (.inl (.inr h)))
    · exact .inr (.inr (.inr ⟨b, h, hb⟩))

/-- `bad` splits what a word can decode to: it is illegal if `bad` holds, and a command otherwise. -/
def IllegalIff (d : Decoded) (bad : Prop) : Prop :=
  ((∃ why, d = .illegal why) ↔ bad) ∧ ((∃ why, d = .illegal why) ∨ ∃ i, d = .command i)

theorem IllegalIff.of_illegal {d : Decoded} {why : IllegalReason} {bad : Prop} (h : d = .illegal why) (hbad : bad) :
    IllegalIff d bad :=
  ⟨iff_of_true ⟨why, h⟩ hbad, .inl ⟨why, h⟩⟩

theorem IllegalIff.of_command {d : Decoded} {i : Instr} {bad : Prop} (h : d = .command i) (hbad : ¬ bad) :
    IllegalIff d bad :=
  ⟨iff_of_false (by simp [h]) hbad, .inr ⟨i, h⟩⟩

section
variable {p : Params} {w : Nat} (hw : w < 2 ^ p.cmdW) (h76 : bits w 7 6 = 0)
include hw h76

theorem cfgRow_illegalIff (hop : bits w 3 0 = 1) : IllegalIff (decode p w) (CfgReserved w) := by
  rw [decode_cfgRow hw h76 hop]
  by_cases h : CfgReserved w
  · exact .of_illegal (decodeCfg_reserved hw h) h
  · exact .of_command (decodeCfg_legal hw h) h

theorem predictRow_illegalIff {mk : Nat → BranchOutcome → Instr} (hop : PredictRow (bits w 3 0) mk) :
    IllegalIff (decode p w) (2 ^ (8 + p.addrW) ≤ w) := by
  rw [decode_predictRow hw h76 hop]
  by_cases h : 2 ^ (8 + p.addrW) ≤ w
  · exact .of_illegal (decodePredict_reserved hw mk h) h
  · exact .of_command (decodePredict_legal hw mk (Nat.not_le.1 h)) h

theorem noOperandRow_illegalIff {i : Instr} (hop : NoOperandRow (bits w 3 0) i) :
    IllegalIff (decode p w) (2 ^ 4 ≤ w) := by
  rw [decode_noOperandRow hw h76 hop]
  by_cases h : 2 ^ 4 ≤ w
  · exact .of_illegal (decodeNoOperand_reserved hw i h) h
  · exact .of_command (decodeNoOperand_legal hw i (Nat.not_le.1 h)) h

end

/-! ### The settled statements -/

/-- Settles O11: the word of each kind of command has its fields where the decoder reads them, and nothing above or between
them. -/
theorem decodeOfEncode : Obligations.DecodeOfEncode := by
  intro p i _ hi
  cases i with
  | cfg v k m1 n m2 => exact decode_encode_cfg p v k m1 n m2
  | bpu a o => exact decode_encode_predict .bpu o hi
  | gpu a o => exact decode_encode_predict .gpu o hi
  | hpu a o => exact decode_encode_predict .hpu o hi
  | snap => exact decode_encode_noOperand p .snap
  | rate => exact decode_encode_noOperand p .rate

/-- Settles O12: a word that decodes has no reserved bit set, so its fields, which the command keeps, are all of it; only the
outcome code 0b11 is not kept. -/
theorem encodeOfDecode : Obligations.EncodeOfDecode := by
  intro p w i _ h
  obtain ⟨hw, h76, ⟨hop, h⟩ | ⟨mk, hop, h⟩ | ⟨j, hop, h⟩⟩ := decode_eq_command h
  · obtain ⟨hres, rfl⟩ := decodeCfg_eq_command hw h
    exact ⟨rfl, .inl (encode_cfgOf hop h76 hres)⟩
  · obtain ⟨hlow, rfl⟩ := decodePredict_eq_command hw h
    have haddr : w / 2 ^ 8 < 2 ^ p.addrW := Nat.div_lt_of_lt_mul (by rwa [← Nat.pow_add])
    refine ⟨?_, (encode_predict hop h76).imp_right fun h => ⟨hop.opcode_range, h⟩⟩
    rw [hop.wellFormed_eq, decide_eq_true haddr]
  · obtain ⟨hlow, rfl⟩ := decodeNoOperand_eq_command hw h
    obtain ⟨hword, hwf⟩ := encode_noOperand hop hlow
    exact ⟨hwf p, .inl hword⟩

/-- Settles O13: the decoder refuses bits [7:6] and the opcode first, then what the row of the opcode reserves; in each case
the other clauses of the statement are of other opcodes. -/
theorem illegalWordsAreTheReservedOnes : Obligations.IllegalWordsAreTheReservedOnes := by
  intro p w _ hw
  rw [← cfgReserved_iff_testBit, ← two_pow_le_iff_testBit, ← two_pow_le_iff_testBit, ← bits_pair_ne_zero_iff,
    ← bits_opcode]
  change IllegalIff _ _
  by_cases h76 : bits w 7 6 = 0
  · rcases opcode_cases (bits w 3 0) with hop | hop | ⟨mk, hop⟩ | ⟨i, hop⟩
    · exact .of_illegal (decode_reservedOpcode hw h76 hop) (.inl hop)
    · simpa [hop, h76] using cfgRow_illegalIff hw h76 hop
    · have hrow := predictRow_illegalIff hw h76 hop
      rcases hop.opcode_range with h | h | h <;> simpa [h, h76] using hrow
    · have hrow := noOperandRow_illegalIff hw h76 hop
      rcases hop.opcode_range with h | h <;> simpa [h, h76] using hrow
  · exact .of_illegal (decode_reservedSub hw h76) (.inr (.inl h76))

/-- Settles O14: each of the four codes is a field of two bits, read as it stands. -/
theorem outcomeCodesDecode : Obligations.OutcomeCodesDecode := by
  intro p a _ ha op mk hrow
  have hop : PredictRow op mk := by
    rcases hrow with h | h | h <;> cases h
    · exact .bpu
    · exact .gpu
    · exact .hpu
  exact ⟨decode_predictWord hop (by decide) ha, decode_predictWord hop (by decide) ha,
    decode_predictWord hop (by decide) ha, decode_predictWord hop (by decide) ha⟩

end Sys2Proof
end

section
/-! SUPPORT. Every command word is answered, and answered once: what the invariant says of the state a command needs, so that
no command and no step stops; with it the settled statements about the handling of words (spec/30_encoding.md R60 to R62,
spec/60_exceptions.md R134). -/

namespace Sys2Proof.Machine

/-! ### What the invariant says is there -/

theorem exists_table_of_tableInv {w : Width} {fill : Counter} {table : Option Table}
    (h : tableInv true w fill table = true) : ∃ t, table = some t := by
  cases table with
  | none => cases h
  | some t => exact ⟨t, rfl⟩

theorem exists_history_of_historyInv {n : Width} {ghr : Option Nat} (h : historyInv true n ghr = true) :
    ∃ g, ghr = some g := by
  cases ghr with
  | none => cases h
  | some g => exact ⟨g, rfl⟩

theorem exists_counters_of_countersInv {p : Params} {pm mp : Option Nat} (h : countersInv p pm mp = true) :
    ∃ a b, pm = some a ∧ mp = some b :=
  match pm, mp, h with
  | some a, some b, _ => ⟨a, b, rfl, rfl⟩

/-- A block in RUNNING is configured (R31) and has what its variant has, and the counters (R23). -/
theorem State.Inv.running {s : State} (h : s.Inv) (hp : s.phase = .running) :
    ∃ c pm mp, s.cfgr = some c ∧ s.pm = some pm ∧ s.mp = some mp ∧ EngineInv c s := by
  obtain ⟨_, hphase, _⟩ := State.inv_iff.1 h
  obtain ⟨c, hc⟩ : ∃ c, s.cfgr = some c := by
    simp only [State.phaseInv, hp, Bool.and_eq_true] at hphase
    exact Option.isSome_iff_exists.1 hphase.2
  have e := h.engine hc
  obtain ⟨pm, mp, hpm, hmp⟩ := exists_counters_of_countersInv e.counters
  exact ⟨c, pm, mp, hc, hpm, hmp, e⟩

theorem EngineInv.exists_bt {c : Cfgr} {s : State} (e : EngineInv c s) (h : c.variant.hasBT = true) :
    ∃ t, s.bt = some t := exists_table_of_tableInv (h ▸ e.bt)

theorem EngineInv.exists_gt {c : Cfgr} {s : State} (e : EngineInv c s) (h : c.variant.hasGT = true) :
    ∃ t, s.gt = some t := exists_table_of_tableInv (h ▸ e.gt)

theorem EngineInv.exists_ct {c : Cfgr} {s : State} (e : EngineInv c s) (h : c.variant.hasCT = true) :
    ∃ t, s.ct = some t := exists_table_of_tableInv (h ▸ e.ct)

theorem EngineInv.exists_ghr {c : Cfgr} {s : State} (e : EngineInv c s) (h : c.variant.hasGT = true) :
    ∃ g, s.ghr = some g := exists_history_of_historyInv (h ▸ e.ghr)

/-! ### No command stops -/

/-- The command, or the step, answers a next state. -/
def GoesOn (r : Result) : Prop := ∃ t, r = .next t

theorem goesOn_next (t : State) : GoesOn (.next t) := ⟨t, rfl⟩

theorem execCfg_goesOn (v : VariantCode) (k m1 n m2 : Width) (s : State) : GoesOn (execCfg v k m1 n m2 s) := by
  unfold execCfg
  split
  · exact goesOn_next _
  · exact goesOn_next _
  · split
    · exact goesOn_next _
    · split <;> exact goesOn_next _

/-- The checks of a predict command need CFGR, PM and MP, and answer or run the body, of the configured variant. -/
theorem predictWith_goesOn {v : Variant} {o : BranchOutcome} {s : State} {body : Cfgr → Nat → Nat → Result} (hs : s.Inv)
    (hbody : ∀ c pm mp, EngineInv c s → c.variant = v → GoesOn (body c pm mp)) : GoesOn (predictWith v o s body) := by
  unfold predictWith
  split
  · exact goesOn_next _
  · exact goesOn_next _
  · rename_i hp
    obtain ⟨c, pm, mp, hc, hpm, hmp, e⟩ := hs.running hp
    simp only [hc, hpm, hmp]
    split
    · exact goesOn_next _
    · rename_i hv
      split
      · exact goesOn_next _
      · split
        · exact goesOn_next _
        · exact hbody c pm mp e (not_not.1 hv)

theorem execBpu_goesOn (a : Nat) (o : BranchOutcome) {s : State} (hs : s.Inv) : GoesOn (execBpu a o s) := by
  refine predictWith_goesOn hs fun c pm mp e hv => ?_
  obtain ⟨bt, hbt⟩ := e.exists_bt (hv ▸ rfl)
  simp only [hbt]
  exact goesOn_next _

theorem execGpu_goesOn (a : Nat) (o : BranchOutcome) {s : State} (hs : s.Inv) : GoesOn (execGpu a o s) := by
  refine predictWith_goesOn hs fun c pm mp e hv => ?_
  obtain ⟨gt, hgt⟩ := e.exists_gt (hv ▸ rfl)
  obtain ⟨g, hg⟩ := e.exists_ghr (hv ▸ rfl)
  simp only [hgt, hg]
  exact goesOn_next _

theorem execHpu_goesOn (a : Nat) (o : BranchOutcome) {s : State} (hs : s.Inv) : GoesOn (execHpu a o s) := by
  refine predictWith_goesOn hs fun c pm mp e hv => ?_
  obtain ⟨bt, hbt⟩ := e.exists_bt (hv ▸ rfl)
  obtain ⟨gt, hgt⟩ := e.exists_gt (hv ▸ rfl)
  obtain ⟨ct, hct⟩ := e.exists_ct (hv ▸ rfl)
  obtain ⟨g, hg⟩ := e.exists_ghr (hv ▸ rfl)
  simp only [hbt, hgt, hct, hg]
  exact goesOn_next _

/-- The tables a snapshot of the variant shows are there (R23, R115). -/
theorem EngineInv.exists_snapshotTables {c : Cfgr} {s : State} (e : EngineInv c s) :
    ∃ tables, snapshotTables c s = some tables := by
  cases hv : c.variant with
  | bimodal =>
    obtain ⟨bt, hbt⟩ := e.exists_bt (hv ▸ rfl)
    simp [snapshotTables, hv, hbt]
  | gshare =>
    obtain ⟨gt, hgt⟩ := e.exists_gt (hv ▸ rfl)
    simp [snapshotTables, hv, hgt]
  | hybrid =>
    obtain ⟨bt, hbt⟩ := e.exists_bt (hv ▸ rfl)
    obtain ⟨gt, hgt⟩ := e.exists_gt (hv ▸ rfl)
    obtain ⟨ct, hct⟩ := e.exists_ct (hv ▸ rfl)
    simp [snapshotTables, hv, hbt, hgt, hct]

theorem execSnap_goesOn {s : State} (hs : s.Inv) : GoesOn (execSnap s) := by
  unfold execSnap
  split
  · exact goesOn_next _
  · exact goesOn_next _
  · rename_i hp
    obtain ⟨c, pm, mp, hc, hpm, hmp, e⟩ := hs.running hp
    obtain ⟨tables, htables⟩ := e.exists_snapshotTables
    simp only [hc, hpm, hmp, htables]
    exact goesOn_next _

theorem execRate_goesOn {s : State} (hs : s.Inv) : GoesOn (execRate s) := by
  unfold execRate
  split
  · exact goesOn_next _
  · exact goesOn_next _
  · rename_i hp
    obtain ⟨_, pm, mp, _, hpm, hmp, _⟩ := hs.running hp
    simp only [hpm, hmp]
    split <;> exact goesOn_next _

/-- No command stops in a state that meets the invariant. -/
theorem exec_goesOn (i : Instr) {s : State} (hs : s.Inv) : GoesOn (exec i s) := by
  cases i with
  | cfg v k m1 n m2 => exact execCfg_goesOn v k m1 n m2 s
  | bpu a o => exact execBpu_goesOn a o hs
  | gpu a o => exact execGpu_goesOn a o hs
  | hpu a o => exact execHpu_goesOn a o hs
  | snap => exact execSnap_goesOn hs
  | rate => exact execRate_goesOn hs

/-- A word of CMD_W bits decodes to a command or is illegal (R62): either way it is answered. -/
theorem runWord_goesOn {s : State} {w : Nat} (hs : s.Inv) (hw : w < 2 ^ s.params.cmdW) : GoesOn (runWord w s) := by
  obtain ⟨hparams, _⟩ := State.inv_iff.1 hs
  obtain ⟨_, ⟨why, hill⟩ | ⟨i, hi⟩⟩ := illegalWordsAreTheReservedOnes s.params w hparams hw
  · simp only [runWord, hill]
    exact goesOn_next _
  · simp only [runWord, hi]
    exact exec_goesOn i hs

/-- A pending word has at most CMD_W bits (R52). -/
theorem State.Inv.word_lt {s : State} {w : Nat} {rest : List HostInput} (h : s.Inv)
    (hp : s.pending = .command w :: rest) : w < 2 ^ s.params.cmdW := by
  obtain ⟨_, _, _, hpend⟩ := State.inv_iff.1 h
  rw [State.pendingInv, hp, List.all_cons, Bool.and_eq_true] at hpend
  exact of_decide_eq_true hpend.1

/-! ### An illegal word, by phase (R60, R134) -/

theorem illegalWord_of_failed {s : State} (h : s.phase = .failed) : illegalWord s = s.answerFailed := by
  simp [illegalWord, h]

theorem illegalWord_of_not_failed {s : State} (h : s.phase ≠ .failed) : illegalWord s = s.raise .illegalCommand := by
  unfold illegalWord
  split
  · contradiction
  · rfl
  · rfl

/-! ### The settled statements -/

/-- Settles O5: what waits is a reset or a word of CMD_W bits, and the state the invariant says is there is all that running
a word asks for. -/
theorem invariantStatesNeverStop : Obligations.InvariantStatesNeverStop := by
  intro s hs
  unfold step
  split
  · exact goesOn_next _
  · exact goesOn_next _
  · rename_i w rest hp
    exact runWord_goesOn (hs.take hp) (hs.word_lt hp)

/-- Settles O9: a word's command ends with one response (`Ends`), and so does an illegal word. -/
theorem everyCommandAnsweredOnce : Obligations.EveryCommandAnsweredOnce := by
  intro s t h
  rcases step_ends h with hidle | ⟨hp, ht⟩ | ⟨w, hp, hends⟩
  · exact .inr (.inr hidle)
  · exact .inr (.inl ⟨hp, by rw [ht]; rfl⟩)
  · obtain ⟨r, hresp⟩ : ∃ r, t.responses = s.responses ++ [r] := by
      rcases hends with ⟨_, _, r, hresp, _⟩ | hshort
      · exact ⟨r, hresp⟩
      · obtain ⟨r, hresp, _⟩ := hshort.countsNothing
        exact ⟨r, hresp⟩
    exact .inl ⟨w, r, hp, hresp⟩

/-- Settles O7: the step takes the word off `pending` and hands it to `illegalWord`, which looks at PHASE alone. -/
theorem illegalWordTakesIllegalCommand : Obligations.IllegalWordTakesIllegalCommand := by
  intro s w rest why hp hdecode
  have hstep : step s = .next (illegalWord { s with pending := rest }) := by simp [step, hp, runWord, hdecode]
  refine ⟨fun hphase => ?_, fun hphase => ?_⟩
  · rw [hstep, illegalWord_of_not_failed (s := { s with pending := rest }) hphase]
    rfl
  · rw [hstep, illegalWord_of_failed (s := { s with pending := rest }) hphase]
    rfl

end Sys2Proof.Machine
end

section
/-! SUPPORT. The assembler: what a program assembles to line by line, and with it the settled statements about it
(spec/30_encoding.md R65, R66). -/

namespace Sys2Proof.Machine

/-! ### The last CFG -/

/-- A line that is no CFG leaves the last variant as it was. -/
theorem lastVariant_of_ne_cfg {line : AsmLine} (h : ∀ v f, line ≠ .cfg v f) (last : Option Variant) :
    lastVariant last line = last := by
  cases line with
  | cfg v f => exact absurd rfl (h v f)
  | _ => rfl

/-- So do any number of such lines. -/
theorem foldl_lastVariant_of_ne_cfg {lines : List AsmLine} (h : ∀ line ∈ lines, ∀ v f, line ≠ .cfg v f)
    (last : Option Variant) : lines.foldl lastVariant last = last := by
  induction lines with
  | nil => rfl
  | cons line rest ih =>
    rw [List.foldl_cons, lastVariant_of_ne_cfg (h line List.mem_cons_self)]
    exact ih fun l hl => h l (List.mem_cons_of_mem _ hl)

/-! ### Programs in parts -/

/-- A program assembles exactly when its first line does and the rest does after it. -/
theorem assembleFrom_cons_eq_ok {p : Params} {last : Option Variant} {line : AsmLine} {rest : List AsmLine}
    {is : List Instr} (h : assembleFrom p last (line :: rest) = .ok is) :
    ∃ i js, assembleLine p last line = .ok i ∧ assembleFrom p (lastVariant last line) rest = .ok js ∧ is = i :: js := by
  simp only [assembleFrom] at h
  split at h
  · cases h
  · rename_i i hi
    split at h
    · cases h
    · rename_i js hjs
      cases h
      exact ⟨i, js, hi, hjs, rfl⟩

/-- The end of a program can be replaced by one that assembles alike after the lines before it. -/
theorem assembleFrom_append_congr {p : Params} {last : Option Variant} {front back back' : List AsmLine}
    (h : assembleFrom p (front.foldl lastVariant last) back = assembleFrom p (front.foldl lastVariant last) back') :
    assembleFrom p last (front ++ back) = assembleFrom p last (front ++ back') := by
  induction front generalizing last with
  | nil => exact h
  | cons line rest ih => simp only [List.cons_append, assembleFrom, ih h]

/-- A program's end assembles, after the lines before it, if the whole does. -/
theorem assembleFrom_append_eq_ok {p : Params} {last : Option Variant} {front back : List AsmLine} {is : List Instr}
    (h : assembleFrom p last (front ++ back) = .ok is) :
    ∃ js, assembleFrom p (front.foldl lastVariant last) back = .ok js := by
  induction front generalizing last is with
  | nil => exact ⟨is, h⟩
  | cons line rest ih =>
    obtain ⟨_, _, _, hrest, _⟩ := assembleFrom_cons_eq_ok h
    exact ih hrest

/-! ### What a line assembles to -/

theorem assembleCfg_wellFormed {p : Params} {v : Variant} {fields : List (AsmField × Nat)} {i : Instr}
    (h : assembleCfg v fields = .ok i) : i.wellFormed p = true := by
  unfold assembleCfg at h
  split at h
  · cases h
  · split at h
    · cases h
    · split at h
      · cases h
      · cases h
        rfl

theorem assemblePredict_wellFormed {p : Params} {op : Nat} {mk : Nat → BranchOutcome → Instr} (hrow : PredictRow op mk)
    {a : Nat} {o : BranchOutcome} {i : Instr} (h : assemblePredict p mk a o = .ok i) : i.wellFormed p = true := by
  unfold assemblePredict at h
  split at h
  · rename_i ha
    cases h
    rw [hrow.wellFormed_eq, decide_eq_true ha]
  · cases h

theorem predictOf_row (v : Variant) : ∃ op, PredictRow op (predictOf v) := by
  cases v with
  | bimodal => exact ⟨_, .bpu⟩
  | gshare => exact ⟨_, .gpu⟩
  | hybrid => exact ⟨_, .hpu⟩

/-- What a line assembles to is well formed: widths by type, addresses checked (R56, R58). -/
theorem assembleLine_wellFormed {p : Params} {last : Option Variant} {line : AsmLine} {i : Instr}
    (h : assembleLine p last line = .ok i) : i.wellFormed p = true := by
  cases line with
  | cfg v fields => exact assembleCfg_wellFormed h
  | bpu a o => exact assemblePredict_wellFormed .bpu h
  | gpu a o => exact assemblePredict_wellFormed .gpu h
  | hpu a o => exact assemblePredict_wellFormed .hpu h
  | pu a o =>
    cases last with
    | none => cases h
    | some v =>
      obtain ⟨_, hrow⟩ := predictOf_row v
      exact assemblePredict_wellFormed hrow h
  | snap =>
    cases h
    rfl
  | rate =>
    cases h
    rfl

theorem assembleFrom_wellFormed {p : Params} {last : Option Variant} {program : List AsmLine} {is : List Instr}
    (h : assembleFrom p last program = .ok is) : ∀ i ∈ is, i.wellFormed p = true := by
  induction program generalizing last is with
  | nil =>
    cases h
    simp
  | cons line rest ih =>
    obtain ⟨i, js, hi, hrest, rfl⟩ := assembleFrom_cons_eq_ok h
    exact List.forall_mem_cons.2 ⟨assembleLine_wellFormed hi, ih hrest⟩

/-! ### The settled statements -/

/-- Settles O54: the variant in force at the PU is that of the last CFG, and there the two lines assemble alike; with no CFG
before it the PU itself does not assemble. -/
theorem puExpandsToLastVariant : Obligations.PuExpandsToLastVariant := by
  constructor
  · intro p before between after v fields a o hbetween
    apply assembleFrom_append_congr
    have hlast : (before ++ .cfg v fields :: between).foldl lastVariant none = some v := by
      rw [List.foldl_append, List.foldl_cons]
      exact foldl_lastVariant_of_ne_cfg hbetween (some v)
    rw [hlast]
    cases v <;> rfl
  · intro p before after a o hbefore is h
    obtain ⟨js, hjs⟩ := assembleFrom_append_eq_ok h
    rw [foldl_lastVariant_of_ne_cfg hbefore] at hjs
    cases hjs

/-- Settles O55: every line assembles to a well-formed command, which its word is read back as (O11). -/
theorem assembledProgramDecodes : Obligations.AssembledProgramDecodes := by
  intro p program is hp h i hi
  have hwf := assembleFrom_wellFormed h i hi
  exact ⟨hwf, decodeOfEncode p i hp hwf⟩

end Sys2Proof.Machine
end

section
/-! SUPPORT. CFG forwards: what it answers in each phase and after each of its checks, and what SNAP reads of the engine it
has just constructed; with it the settled statements about configuration (spec/40_configure.md R70 to R75). -/

namespace Sys2Proof.Machine

/-! ### The checks of R70 -/

/-- A used width above MAX_W is refused first (R70 step 2). -/
theorem cfgRefusal_of_tooWide {maxW : Nat} {v : Variant} {k m1 n m2 w : Width} (hw : w ∈ usedWidths v k m1 m2)
    (h : maxW < w.toNat) : cfgRefusal maxW v k m1 n m2 = some .cfgWidthTooLarge :=
  if_pos (List.any_eq_true.2 ⟨w, hw, decide_eq_true h⟩)

/-- Widths within MAX_W pass R70 step 2, and what is left is the history's check. -/
theorem cfgRefusal_of_widths_le {maxW : Nat} {v : Variant} {k m1 n m2 : Width}
    (hw : ∀ w ∈ usedWidths v k m1 m2, w.toNat ≤ maxW) :
    cfgRefusal maxW v k m1 n m2 = if v.hasGT ∧ m1.toNat < n.toNat then some .cfgHistoryTooLong else none :=
  if_neg (by simpa using hw)

/-- A history longer than the table index is refused, the widths being in order (R70 step 3). -/
theorem cfgRefusal_of_longHistory {maxW : Nat} {v : Variant} {k m1 n m2 : Width}
    (hw : ∀ w ∈ usedWidths v k m1 m2, w.toNat ≤ maxW) (hv : v.hasGT = true) (hn : m1.toNat < n.toNat) :
    cfgRefusal maxW v k m1 n m2 = some .cfgHistoryTooLong :=
  (cfgRefusal_of_widths_le hw).trans (if_pos ⟨hv, hn⟩)

/-- Nothing else is refused: the converse of `cfgRefusal_eq_none`. -/
theorem cfgRefusal_of_fits {maxW : Nat} {v : Variant} {k m1 n m2 : Width}
    (hw : ∀ w ∈ usedWidths v k m1 m2, w.toNat ≤ maxW) (hn : v.hasGT = true → n.toNat ≤ m1.toNat) :
    cfgRefusal maxW v k m1 n m2 = none :=
  (cfgRefusal_of_widths_le hw).trans (if_neg fun ⟨hv, hlt⟩ => Nat.not_lt.2 (hn hv) hlt)

/-! ### What CFG answers -/

section
variable {s : State} {v : VariantCode} {var : Variant} {k m1 n m2 : Width}

theorem execCfg_of_failed (hp : s.phase = .failed) : execCfg v k m1 n m2 s = .next s.answerFailed := by
  simp [execCfg, hp]

theorem execCfg_of_running (hp : s.phase = .running) :
    execCfg v k m1 n m2 s = .next (s.raise .alreadyConfigured) := by
  simp [execCfg, hp]

theorem execCfg_of_unrecognised (hp : s.phase = .unconfigured) (hv : recognisedVariant v = none) :
    execCfg v k m1 n m2 s = .next (s.raise .cfgBadVariant) := by
  simp [execCfg, hp, hv]

theorem execCfg_of_refused {code : FaultCode} (hp : s.phase = .unconfigured) (hv : recognisedVariant v = some var)
    (hcode : cfgRefusal s.params.maxW var k m1 n m2 = some code) :
    execCfg v k m1 n m2 s = .next (s.raise code) := by
  simp [execCfg, hp, hv, hcode]

theorem execCfg_of_accepted (hp : s.phase = .unconfigured) (hv : recognisedVariant v = some var)
    (hok : cfgRefusal s.params.maxW var k m1 n m2 = none) :
    execCfg v k m1 n m2 s = .next ((s.construct var k m1 n m2).respond .ok) := by
  simp [execCfg, hp, hv, hok]

end

/-! ### The first snapshot -/

/-- A command that stops short does not answer OK. -/
theorem StopsShort.response_ne_ok {s t : State} (h : StopsShort s t) : t.responses ≠ s.responses ++ [.ok] := by
  rcases h with ⟨_, rfl⟩ | ⟨_, k, _, rfl⟩ <;> simp

/-- A CFG that answers OK has constructed the engine of a recognised variant. -/
theorem execCfg_ok {v : VariantCode} {k m1 n m2 : Width} {s t : State} (h : execCfg v k m1 n m2 s = .next t)
    (hok : t.responses = s.responses ++ [.ok]) :
    ∃ var, recognisedVariant v = some var ∧ t = (s.construct var k m1 n m2).respond .ok := by
  rcases execCfg_next h with hshort | ⟨var, _, hv, _, ht⟩
  · exact absurd hok hshort.response_ne_ok
  · exact ⟨var, hv, ht⟩

/-- SNAP in RUNNING, where what the variant has is there. -/
theorem execSnap_of_running {s : State} {c : Cfgr} {pm mp : Nat} {tables : List TableView} (hp : s.phase = .running)
    (hc : s.cfgr = some c) (hpm : s.pm = some pm) (hmp : s.mp = some mp) (ht : snapshotTables c s = some tables) :
    execSnap s = .next (s.respond (.snapshot ⟨pm, mp, tables⟩)) := by
  simp [execSnap, hp, hc, hpm, hmp, ht]

/-- The tables of a variant at their initial values, as a snapshot holds them: `snapshotTables_construct`. -/
def initialTables (v : Variant) (k m1 m2 : Width) : List TableView :=
  match v with
  | .bimodal => [⟨.bimodal, m2.toNat, .filled 2⟩]
  | .gshare => [⟨.gshare, m1.toNat, .filled 2⟩]
  | .hybrid => [⟨.chooser, k.toNat, .filled 1⟩, ⟨.gshare, m1.toNat, .filled 2⟩, ⟨.bimodal, m2.toNat, .filled 2⟩]

theorem snapshotTables_construct (s : State) (v : Variant) (k m1 n m2 : Width) (r : Response) :
    snapshotTables (acceptedCfgr v k m1 n m2) ((s.construct v k m1 n m2).respond r) =
      some (initialTables v k m1 m2) := by
  cases v <;> rfl

/-- SNAP right after construction reports no prediction and the initial tables. -/
theorem execSnap_construct (s : State) (v : Variant) (k m1 n m2 : Width) (r : Response) :
    execSnap ((s.construct v k m1 n m2).respond r) =
      .next (((s.construct v k m1 n m2).respond r).respond (.snapshot ⟨0, 0, initialTables v k m1 m2⟩)) :=
  execSnap_of_running rfl rfl rfl rfl (snapshotTables_construct s v k m1 n m2 r)

/-- Every entry of a filled table is reported at the fill value. -/
@[simp] theorem TableView.values_filled (name : TableName) (w : Nat) (c : Counter) :
    (TableView.mk name w (.filled c)).values = List.replicate (2 ^ w) c := by
  simp [TableView.values, List.eq_replicate_iff]

/-! ### The settled statements -/

/-- Settles O24: each phase has its answer (R73), and in UNCONFIGURED each failing check its code, the earlier ones passed
(R70). -/
theorem cfgChecksInOrder : Obligations.CfgChecksInOrder := by
  intro s v k m1 n m2 faulted tooWide
  refine ⟨execCfg_of_running, fun hp hv => execCfg_of_unrecognised hp (hv ▸ rfl), fun hp hwide => ?_,
    fun hp hwide hv hn => ?_, execCfg_of_failed⟩
  · obtain ⟨var, w, hvar, hmem, hw⟩ :
        ∃ var w, recognisedVariant v = some var ∧ w ∈ usedWidths var k m1 m2 ∧ s.params.maxW < w.toNat := by
      rcases hwide with ⟨rfl, h⟩ | ⟨rfl, h⟩ | ⟨rfl, h | h | h⟩
      · exact ⟨.bimodal, m2, rfl, by simp [usedWidths], h⟩
      · exact ⟨.gshare, m1, rfl, by simp [usedWidths], h⟩
      · exact ⟨.hybrid, k, rfl, by simp [usedWidths], h⟩
      · exact ⟨.hybrid, m1, rfl, by simp [usedWidths], h⟩
      · exact ⟨.hybrid, m2, rfl, by simp [usedWidths], h⟩
    exact execCfg_of_refused hp hvar (cfgRefusal_of_tooWide hmem hw)
  · obtain ⟨var, hvar, hgt, hfit⟩ : ∃ var, recognisedVariant v = some var ∧ var.hasGT = true ∧
        ∀ w ∈ usedWidths var k m1 m2, w.toNat ≤ s.params.maxW := by
      rcases hv with rfl | rfl
      · exact ⟨.gshare, rfl, rfl, by simpa [tooWide, usedWidths] using hwide⟩
      · exact ⟨.hybrid, rfl, rfl, by simpa [tooWide, usedWidths] using hwide⟩
    exact execCfg_of_refused hp hvar (cfgRefusal_of_longHistory hfit hgt hn)

/-- Settles O47: a CFG answered OK has constructed the engine of its variant, which SNAP then reads at its initial values. -/
theorem snapshotAfterConfiguration : Obligations.SnapshotAfterConfiguration := by
  intro s t v k m1 n m2 h hok
  obtain ⟨var, hvar, rfl⟩ := execCfg_ok h hok
  refine ⟨⟨0, 0, initialTables var k m1 m2⟩, execSnap_construct s var k m1 n m2 .ok, rfl, rfl, ?_, ?_, ?_⟩
  all_goals
    rintro rfl
    cases hvar
    simp [SnapshotRecord.listing, initialTables]

/-- Settles O23: the widths named pass the checks, and construction for each variant is the state written out. -/
theorem cfgConstructs : Obligations.CfgConstructs := by
  refine ⟨fun s k m1 n m2 hp hm2 => ?_, fun s k m1 n m2 hp hm1 hn => ?_, fun s k m1 n m2 hp hk hm1 hm2 hn => ?_,
    Table.read_filled⟩
  · have hok : cfgRefusal s.params.maxW .bimodal k m1 n m2 = none :=
      cfgRefusal_of_fits (by simpa [usedWidths] using hm2) (by simp [Variant.hasGT])
    exact execCfg_of_accepted (v := .bimodal) hp rfl hok
  · have hok : cfgRefusal s.params.maxW .gshare k m1 n m2 = none :=
      cfgRefusal_of_fits (by simpa [usedWidths] using hm1) fun _ => hn
    exact execCfg_of_accepted (v := .gshare) hp rfl hok
  · have hok : cfgRefusal s.params.maxW .hybrid k m1 n m2 = none :=
      cfgRefusal_of_fits (by simpa [usedWidths] using ⟨hk, hm1, hm2⟩) fun _ => hn
    exact execCfg_of_accepted (v := .hybrid) hp rfl hok

end Sys2Proof.Machine
end

section
/-! SUPPORT. The bimodal predictor: its counters, its index, what BPU does and leaves unchanged; and that no step moves a
counter of any table by more than one. With them the settled statements of spec/41_bimodal.md. -/

namespace Sys2Proof.Machine

/-! ### Counters (R80, R81) -/

theorem pred_eq_t_iff (c : Counter) : pred c = .t ↔ 2 ≤ c.toNat := by
  unfold pred
  split <;> simp [*]

theorem pred_eq_nt_iff (c : Counter) : pred c = .nt ↔ ¬ 2 ≤ c.toNat := by
  unfold pred
  split <;> simp [*]

/-- A counter is at least 2 when its upper bit is 1. -/
theorem counter_two_le_iff_bit_one (c : Counter) : 2 ≤ c.toNat ↔ c.getLsbD 1 = true := by
  revert c
  decide

theorem counter_toNat_le_three (c : Counter) : c.toNat ≤ 3 := Nat.le_of_lt_succ c.isLt

@[simp] theorem countUp_toNat (c : Counter) : (countUp c).toNat = min (c.toNat + 1) 3 := by
  rw [countUp, BitVec.toNat_ofNat, Nat.mod_eq_of_lt (by omega)]

@[simp] theorem countDown_toNat (c : Counter) : (countDown c).toNat = c.toNat - 1 := by
  have := counter_toNat_le_three c
  rw [countDown, BitVec.toNat_ofNat, Nat.mod_eq_of_lt (by omega)]

/-! ### The word index (R83, as R90 and R101) -/

theorem wordIndex_eq_and_mask (a w : Nat) : wordIndex a w = (a >>> 2) &&& ((1 <<< w) - 1) := by
  rw [wordIndex, Nat.one_shiftLeft, Nat.and_two_pow_sub_one_eq_mod]

/-- The index is the field of `w` bits from bit 2. -/
theorem wordIndex_eq_bits (a w : Nat) : wordIndex a w = bits a (w + 1) 2 := rfl

theorem wordAddress_lt {a addrW : Nat} (h2 : 2 ≤ addrW) (ha : a < 2 ^ addrW) : a >>> 2 < 2 ^ (addrW - 2) := by
  rw [Nat.shiftRight_eq_div_pow]
  exact Nat.div_lt_of_lt_mul (by rwa [← Nat.pow_add, Nat.add_sub_cancel' h2])

/-- An index as wide as the word address, or wider, is the whole of it. -/
theorem wordIndex_eq_wordAddress {a addrW w : Nat} (h2 : 2 ≤ addrW) (ha : a < 2 ^ addrW) (hw : addrW - 2 ≤ w) :
    wordIndex a w = a >>> 2 :=
  Nat.mod_eq_of_lt ((wordAddress_lt h2 ha).trans_le (Nat.pow_le_pow_right two_pos hw))

theorem wordAddress_eq_bits {a addrW : Nat} (h2 : 2 ≤ addrW) (ha : a < 2 ^ addrW) : a >>> 2 = bits a (addrW - 1) 2 := by
  have hwidth : addrW - 1 + 1 = addrW := by omega
  rw [bits, hwidth, Nat.mod_eq_of_lt (wordAddress_lt h2 ha)]

/-! ### BPU that completes (R84) -/

theorem execBpu_of_admitted {a : Nat} {o : BranchOutcome} {s : State} {c : Cfgr} {pm mp : Nat} {bt : Table}
    (hadm : Admitted .bimodal o s c pm mp) (hbt : s.bt = some bt) :
    execBpu a o s = .next (State.respond
      { s with
        pm := some (pm + 1)
        mp := some (countMiss mp (pred (bt.read (idxB a c.m2))) o)
        bt := some (bt.write (idxB a c.m2) (upd (bt.read (idxB a c.m2)) o)) }
      (.pred (pred (bt.read (idxB a c.m2))))) := by
  simp [execBpu, predictWith_admitted hadm, hbt]

/-! ### What a predict command leaves unchanged -/

/-- A command that stops short answers no prediction. -/
theorem StopsShort.response_ne_pred {s t : State} (h : StopsShort s t) (p : Prediction) :
    t.responses ≠ s.responses ++ [.pred p] := by
  rcases h with ⟨_, rfl⟩ | ⟨_, k, _, rfl⟩ <;> simp

/-- A FAILED block keeps its FAULT (R133). -/
theorem StopsShort.fault_eq {s t : State} (h : StopsShort s t) (hp : s.phase = .failed) : t.fault = s.fault := by
  rcases h with ⟨_, rfl⟩ | ⟨hne, _⟩
  · rfl
  · exact absurd hp hne

/-! ### Tables whose counters are near (R85) -/

/-- No counter differs by more than one. -/
def Table.Near (u u' : Table) : Prop :=
  ∀ j, (u'.read j).toNat ≤ (u.read j).toNat + 1 ∧ (u.read j).toNat ≤ (u'.read j).toNat + 1

theorem Table.Near.refl (u : Table) : u.Near u := fun _ => ⟨Nat.le_succ _, Nat.le_succ _⟩

/-- Writing a counter near the one it replaces gives a table near the old one. -/
theorem Table.near_write {u : Table} {i : Nat} {v : Counter}
    (h : v.toNat ≤ (u.read i).toNat + 1 ∧ (u.read i).toNat ≤ v.toNat + 1) : u.Near (u.write i v) := by
  intro j
  by_cases hj : j = i
  · subst hj
    rwa [Table.read_write_same]
  · rw [Table.read_write_other hj]
    exact Table.Near.refl u j

theorem Table.Near.ite {u v w : Table} {b : Bool} (hv : u.Near v) (hw : u.Near w) : u.Near (if b then v else w) := by
  split
  · exact hv
  · exact hw

/-- If the table exists before and after, its counters are near. -/
def NearWhereKept (before after : Option Table) : Prop := ∀ u u', before = some u → after = some u' → u.Near u'

theorem NearWhereKept.of_eq {before after : Option Table} (h : after = before) : NearWhereKept before after := by
  intro u u' hu hu'
  obtain rfl : u = u' := Option.some.inj ((h.trans hu).symm.trans hu')
  exact .refl u

theorem NearWhereKept.of_near {before : Option Table} {u u' : Table} (hu : before = some u) (h : u.Near u') :
    NearWhereKept before (some u') := by
  rintro v _ hv ⟨⟩
  obtain rfl : u = v := Option.some.inj (hu.symm.trans hv)
  exact h

theorem nearWhereKept_none (before : Option Table) : NearWhereKept before none := fun _ _ _ h => nomatch h

/-- Each of the three tables, where kept, is near what it was. -/
structure TablesNear (s t : State) : Prop where
  bt : NearWhereKept s.bt t.bt
  gt : NearWhereKept s.gt t.gt
  ct : NearWhereKept s.ct t.ct

theorem TablesNear.of_eq {s t : State} (hbt : t.bt = s.bt) (hgt : t.gt = s.gt) (hct : t.ct = s.ct) : TablesNear s t :=
  ⟨.of_eq hbt, .of_eq hgt, .of_eq hct⟩

/-- Taking the next input leaves the tables. -/
theorem TablesNear.of_take {s t : State} {rest : List HostInput} (h : TablesNear { s with pending := rest } t) :
    TablesNear s t :=
  ⟨h.bt, h.gt, h.ct⟩

theorem StopsShort.tablesNear {s t : State} (h : StopsShort s t) : TablesNear s t := by
  obtain ⟨_, _, hbt, hgt, hct, _⟩ := h.frame
  exact .of_eq hbt hgt hct

/-- A command that is no accepted CFG moves every counter by at most one: tables are written by predict commands alone, which
write `upd` or `credit` of what was there. -/
theorem exec_tablesNear {i : Instr} {s t : State} (h : exec i s = .next t) (hok : t.responses ≠ s.responses ++ [.ok]) :
    TablesNear s t := by
  cases i with
  | cfg v k m1 n m2 =>
    rcases execCfg_next h with hshort | ⟨_, _, _, _, rfl⟩
    · exact hshort.tablesNear
    · exact absurd rfl hok
  | bpu a o =>
    rcases execBpu_next h with hshort | ⟨_, _, _, _, _, hbt, rfl⟩
    · exact hshort.tablesNear
    · exact ⟨.of_near hbt (Table.near_write (upd_near _ o)), .of_eq rfl, .of_eq rfl⟩
  | gpu a o =>
    rcases execGpu_next h with hshort | ⟨_, _, _, _, _, _, hgt, _, rfl⟩
    · exact hshort.tablesNear
    · exact ⟨.of_eq rfl, .of_near hgt (Table.near_write (upd_near _ o)), .of_eq rfl⟩
  | hpu a o =>
    rcases execHpu_next h with hshort | ⟨_, _, _, _, _, _, _, _, _, hbt, hgt, hct, _, _, rfl⟩
    · exact hshort.tablesNear
    · exact ⟨.of_near hbt (.ite (.refl _) (Table.near_write (upd_near _ o))),
        .of_near hgt (.ite (Table.near_write (upd_near _ o)) (.refl _)),
        .of_near hct (Table.near_write (credit_near _ _ _ o))⟩
  | snap =>
    obtain ⟨_, _, rfl⟩ := execSnap_next h
    exact .of_eq rfl rfl rfl
  | rate =>
    obtain ⟨_, _, rfl⟩ := execRate_next h
    exact .of_eq rfl rfl rfl

/-! ### The settled statements -/

/-- Settles O18: the index is the word address modulo 2^M2, and the whole word address where M2 reaches past it. -/
theorem bimodalIndex : Obligations.BimodalIndex := by
  intro a m2
  refine ⟨wordIndex_eq_and_mask a _, rfl, fun _ _ _ _ => wordIndex_eq_bits a _, fun addrW h2 ha hm2 => ?_, fun h0 => ?_,
    idxB_lt a m2, fun b hb => wordIndex_congr hb _⟩
  · have hidx : idxB a m2 = a >>> 2 := wordIndex_eq_wordAddress h2 ha hm2.le
    refine ⟨hidx.trans (wordAddress_eq_bits h2 ha), fun j hj => ?_⟩
    have hj' : addrW - 2 ≤ j := by omega
    rw [hidx]
    exact Nat.testBit_lt_two_pow ((wordAddress_lt h2 ha).trans_le (Nat.pow_le_pow_right two_pos hj'))
  · simpa [h0] using idxB_lt a m2

/-- Settles O30: a BPU stops short, which touches PHASE and FAULT alone, or writes PM, MP and the one entry of BT it
indexes. -/
theorem bpuFrame : Obligations.BpuFrame := by
  intro s t a o h
  obtain ⟨r, hresp, hpending, hparams, _⟩ := exec_ends h
  rcases execBpu_next h with hshort | ⟨c, pm, mp, bt, hadm, hbt, rfl⟩
  · obtain ⟨hphase, hcfgr, hbt, hgt, hct, hghr, hpm, hmp⟩ := hshort.frame
    refine ⟨hparams, hpending, hcfgr, hgt, hct, hghr, ⟨r, hresp⟩,
      .inr ⟨hshort.response_ne_pred, hphase, hshort.fault_eq, hbt, hpm, hmp⟩,
      fun c bt bt' _ h₁ h₂ => ?_, by rw [hbt]⟩
    obtain rfl : bt = bt' := Option.some.inj ((hbt.trans h₁).symm.trans h₂)
    exact ⟨rfl, fun _ _ => rfl⟩
  · refine ⟨rfl, rfl, rfl, rfl, rfl, rfl, ⟨r, hresp⟩, .inl ⟨⟨_, rfl⟩, rfl, rfl⟩, ?_, by simp [hbt]⟩
    rintro c₁ bt₁ _ hc₁ hbt₁ ⟨⟩
    obtain rfl : c = c₁ := Option.some.inj (hadm.hasCfgr.symm.trans hc₁)
    obtain rfl : bt = bt₁ := Option.some.inj (hbt.symm.trans hbt₁)
    exact ⟨Table.write_fill _ _ _, fun j hj => Table.read_write_other hj⟩

/-- Settles O34: a command moves each counter by at most one, an illegal word and an idle step none, and a reset leaves no
table. -/
theorem countersMoveByAtMostOne : Obligations.CountersMoveByAtMostOne := by
  intro s t h hok u u' htables
  have hnear : TablesNear s t := by
    rcases step_next h with ⟨_, rfl⟩ | ⟨rest, _, rfl⟩ | ⟨w, rest, _, ⟨i, _, he⟩ | ⟨_, _, rfl⟩⟩
    · exact .of_eq rfl rfl rfl
    · exact ⟨nearWhereKept_none _, nearWhereKept_none _, nearWhereKept_none _⟩
    · exact (exec_tablesNear he hok).of_take
    · exact (illegalWord_stopsShort _).tablesNear.of_take
  rcases htables with ⟨hu, hu'⟩ | ⟨hu, hu'⟩ | ⟨hu, hu'⟩
  · exact hnear.bt u u' hu hu'
  · exact hnear.gt u u' hu hu'
  · exact hnear.ct u u' hu hu'

/-- Settles O15: of the four counters those that are at least 2 have bit 1 set. -/
theorem counterPrediction : Obligations.CounterPrediction := fun c =>
  ⟨pred_eq_t_iff c, pred_eq_nt_iff c, (pred_eq_t_iff c).trans (counter_two_le_iff_bit_one c)⟩

/-- Settles O16: the two counts do not overflow 2 bits, which hold no more than 3. -/
theorem counterUpdateSaturates : Obligations.CounterUpdateSaturates := fun c =>
  ⟨countUp_toNat c, (countDown_toNat c).trans (Nat.max_zero _).symm, upd_malformed c,
    fun o => counter_toNat_le_three (upd c o)⟩

/-- Settles O17, row by row. -/
theorem mispredictionTest : Obligations.MispredictionTest := ⟨rfl, rfl, rfl, rfl, rfl, rfl⟩

/-- Settles O26: such a BPU is admitted by every check, and its effect is the state written out. -/
theorem bpuPredictsAndUpdates : Obligations.BpuPredictsAndUpdates := by
  intro s a o c bt pm mp hp hc hv hbt hpm hmp hfull htol
  exact execBpu_of_admitted ⟨hp, hc, hpm, hmp, hv, hfull, htol⟩ hbt

end Sys2Proof.Machine
end

section
/-! SUPPORT. The gshare predictor: its index, its history as a window of outcomes, what GPU does and leaves unchanged, and that
without history it is a bimodal predictor. With them the settled statements of spec/42_gshare.md. -/

namespace Sys2Proof.Machine

/-! ### The index (R90, R91) -/

theorem idxG_of_no_history {n : Width} (hn : n.toNat = 0) (a : Nat) (m1 : Width) (g : Nat) : idxG a m1 n g = pcBits a m1 := by
  simp [idxG, hn]

theorem idxG_of_history {n : Width} (hn : 1 ≤ n.toNat) (a : Nat) (m1 : Width) (g : Nat) :
    idxG a m1 n g = (((pcBits a m1 >>> (m1.toNat - n.toNat)) ^^^ g) <<< (m1.toNat - n.toNat)) |||
      (pcBits a m1 % 2 ^ (m1.toNat - n.toNat)) := by
  have hne : n.toNat ≠ 0 := by omega
  simp [idxG, hne]

/-- Changing the bits from `low` up by `g` and keeping those below is one XOR with `g` shifted there. -/
theorem xor_high_bits (pc g low : Nat) : ((pc >>> low) ^^^ g) <<< low ||| pc % 2 ^ low = pc ^^^ (g <<< low) := by
  apply Nat.eq_of_testBit_eq
  intro j
  by_cases hj : j < low
  · simp [hj, Nat.not_le.2 hj]
  · simp [hj, Nat.not_lt.1 hj, Nat.add_sub_cancel' (Nat.not_lt.1 hj)]

/-- The index as one XOR (R91); with N = 0 the history is 0. -/
theorem idxG_eq_xor {n : Width} {g : Nat} (hg : g < 2 ^ n.toNat) (a : Nat) (m1 : Width) :
    idxG a m1 n g = pcBits a m1 ^^^ (g <<< (m1.toNat - n.toNat)) := by
  by_cases hn : n.toNat = 0
  · obtain rfl : g = 0 := by simpa [hn] using hg
    simp [idxG_of_no_history hn]
  · rw [idxG_of_history (Nat.one_le_iff_ne_zero.2 hn), xor_high_bits]

/-! ### The history update (R92 to R94) -/

theorem taken_eq_ite (o : BranchOutcome) : taken o = if o = .t then 1 else 0 := by cases o <;> rfl

theorem historyNext_of_no_bits {n : Width} (hn : n.toNat = 0) (g : Nat) (o : BranchOutcome) : historyNext n g o = g := by
  simp [historyNext, hn]

theorem historyNext_of_bits {n : Width} (hn : 1 ≤ n.toNat) (g : Nat) (o : BranchOutcome) :
    historyNext n g o = (g >>> 1) ||| (taken o <<< (n.toNat - 1)) := by
  have hne : n.toNat ≠ 0 := by omega
  simp [historyNext, hne]

theorem historyNext_eq_ite (n : Width) (g : Nat) (o : BranchOutcome) :
    historyNext n g o =
      if 1 ≤ n.toNat then (g >>> 1) ||| ((if o = .t then 1 else 0) <<< (n.toNat - 1)) else g := by
  split
  · rw [historyNext_of_bits ‹_›, taken_eq_ite]
  · exact historyNext_of_no_bits (by omega) g o

/-- A malformed outcome shifts in a 0 (R94). -/
theorem historyNext_malformed {n : Width} (hn : 1 ≤ n.toNat) (g : Nat) : historyNext n g .x = g >>> 1 := by
  simp [historyNext_of_bits hn, taken]

theorem testBit_taken (o : BranchOutcome) (j : Nat) : (taken o).testBit j = (decide (j = 0) && decide (o = .t)) := by
  rw [Bool.eq_iff_iff]
  cases o <;> simp [taken, Nat.testBit_one_eq_true_iff_self_eq_zero]

/-- The history bit by bit after an update: the outcome on top, every other bit from the place above. -/
theorem testBit_historyNext {n : Width} {g : Nat} (hn : 1 ≤ n.toNat) (hg : g < 2 ^ n.toNat) (o : BranchOutcome) (j : Nat) :
    (historyNext n g o).testBit j = if j + 1 = n.toNat then decide (o = .t) else g.testBit (j + 1) := by
  rw [historyNext_of_bits hn, Nat.testBit_or, Nat.testBit_shiftRight, Nat.testBit_shiftLeft, testBit_taken, Nat.add_comm 1 j]
  split
  · rename_i htop
    have hclear : g.testBit (j + 1) = false := Nat.testBit_lt_two_pow (htop ▸ hg)
    have hj : n.toNat - 1 = j := by omega
    simp [hclear, hj]
  · have hj : ¬ (n.toNat - 1 ≤ j ∧ j - (n.toNat - 1) = 0) := by omega
    simp only [not_and] at hj
    by_cases hle : n.toNat - 1 ≤ j <;> simp [hle, hj]

theorem testBit_bits (v hi lo j : Nat) : (bits v hi lo).testBit j = (decide (j < hi + 1 - lo) && v.testBit (lo + j)) := by
  rw [bits, Nat.testBit_mod_two_pow, Nat.testBit_shiftRight]

/-- A field of one bit. -/
theorem bits_one_bit (v j : Nat) : bits v j j = (v.testBit j).toNat := by
  rw [bits, Nat.add_sub_cancel_left, Nat.pow_one, Nat.shiftRight_eq_div_pow, Nat.toNat_testBit]

/-! ### The history as a window of outcomes (R97) -/

theorem foldl_historyNext_lt (n : Width) (os : List BranchOutcome) : os.foldl (historyNext n) 0 < 2 ^ n.toNat := by
  induction os using List.reverseRecOn with
  | nil => exact Nat.two_pow_pos _
  | append_singleton os o ih =>
    rw [List.foldl_concat]
    exact historyNext_lt o ih

/-- From an empty history, the outcomes entered stand from the top bit down, the most recent first. -/
theorem testBit_foldl_historyNext {n : Width} (os : List BranchOutcome) {k : Nat} (hk : k < n.toNat) :
    (os.foldl (historyNext n) 0).testBit (n.toNat - 1 - k) = decide (os.reverse[k]? = some .t) := by
  induction os using List.reverseRecOn generalizing k with
  | nil => simp
  | append_singleton os o ih =>
    rw [List.foldl_concat, testBit_historyNext (by omega) (foldl_historyNext_lt n os), List.reverse_concat]
    cases k with
    | zero =>
      have htop : n.toNat - 1 - 0 + 1 = n.toNat := by omega
      rw [if_pos htop, List.getElem?_cons_zero]
      simp
    | succ k =>
      have hplace : n.toNat - 1 - (k + 1) + 1 = n.toNat - 1 - k := by omega
      have hlow : n.toNat - 1 - k ≠ n.toNat := by omega
      rw [hplace, if_neg hlow, ih (by omega), List.getElem?_cons_succ]

/-! ### What a command does to the history -/

theorem StopsShort.phase_eq {s t : State} (h : StopsShort s t) : t.phase = .failed := by
  obtain ⟨hphase, _⟩ := h.frame
  exact hphase

theorem StopsShort.ghr_eq {s t : State} (h : StopsShort s t) : t.ghr = s.ghr := by
  obtain ⟨_, _, _, _, _, hghr, _⟩ := h.frame
  exact hghr

/-- GPU and HPU, where they complete, update the history by their outcome. -/
theorem exec_updates_history {i : Instr} {o : BranchOutcome} {s t : State} {c : Cfgr} (ho : historyOutcome i = some o)
    (h : exec i s = .next t) (hc : s.cfgr = some c) :
    StopsShort s t ∨ t.ghr = s.ghr.map fun g => historyNext c.n g o := by
  cases i with
  | gpu a o' =>
    obtain rfl : o' = o := Option.some.inj ho
    refine (execGpu_next h).imp_right ?_
    rintro ⟨c', _, _, _, g, hadm, _, hg, rfl⟩
    obtain rfl : c = c' := Option.some.inj (hc.symm.trans hadm.hasCfgr)
    simp [hg]
  | hpu a o' =>
    obtain rfl : o' = o := Option.some.inj ho
    refine (execHpu_next h).imp_right ?_
    rintro ⟨c', _, _, _, _, _, g, _, hadm, _, _, _, hg, _, rfl⟩
    obtain rfl : c = c' := Option.some.inj (hc.symm.trans hadm.hasCfgr)
    simp [hg]
  | cfg | bpu | snap | rate => cases ho

/-- No other command touches the history of a configured block. -/
theorem exec_keeps_history {i : Instr} {s t : State} (ho : historyOutcome i = none) (hs : s.phase ≠ .unconfigured)
    (h : exec i s = .next t) : t.ghr = s.ghr := by
  cases i with
  | cfg v k m1 n m2 =>
    rcases execCfg_next h with hshort | ⟨_, hp, _⟩
    · exact hshort.ghr_eq
    · exact absurd hp hs
  | bpu a o =>
    rcases execBpu_next h with hshort | ⟨_, _, _, _, _, _, rfl⟩
    · exact hshort.ghr_eq
    · rfl
  | snap =>
    obtain ⟨_, _, rfl⟩ := execSnap_next h
    rfl
  | rate =>
    obtain ⟨_, _, rfl⟩ := execRate_next h
    rfl
  | gpu | hpu => cases ho

theorem historyOutcome_of_predict {i : Instr} {a : Nat} {o : BranchOutcome} (hi : i = .gpu a o ∨ i = .hpu a o) :
    historyOutcome i = some o := by
  rcases hi with rfl | rfl <;> rfl

/-- What a GPU or HPU that answers a prediction does to the history of the configured block. -/
theorem exec_updates_history_of_pred {i : Instr} {o : BranchOutcome} {s t : State} {c : Cfgr} {g : Nat} {p : Prediction}
    (ho : historyOutcome i = some o) (h : exec i s = .next t) (hpred : t.responses = s.responses ++ [.pred p])
    (hc : s.cfgr = some c) (hg : s.ghr = some g) : t.ghr = some (historyNext c.n g o) := by
  rcases exec_updates_history ho h hc with hshort | hghr
  · exact absurd hpred (hshort.response_ne_pred p)
  · rw [hghr, hg, Option.map_some]

/-! ### Runs of commands -/

theorem execAll_cons_next {i : Instr} {rest : List Instr} {s t : State} (h : execAll (i :: rest) s = .next t) :
    ∃ u, exec i s = .next u ∧ execAll rest u = .next t := by
  rw [execAll] at h
  split at h
  · exact ⟨_, ‹_›, h⟩
  · cases h
  · cases h

/-- A FAILED block stays FAILED under commands (R133). -/
theorem execAll_failed {run : List Instr} {s t : State} (hs : s.phase = .failed) (h : execAll run s = .next t) :
    t.phase = .failed := by
  induction run generalizing s with
  | nil =>
    cases h
    exact hs
  | cons i rest ih =>
    obtain ⟨u, hu, hrest⟩ := execAll_cons_next h
    refine ih ?_ hrest
    rcases (exec_ends hu).transition with ⟨hphase, _⟩ | ⟨hun, _⟩ | ⟨_, hphase, _⟩
    · exact hphase.trans hs
    · simp [hs] at hun
    · exact hphase

/-- A run that ends in RUNNING was in RUNNING, and with one configuration, after its first command. -/
theorem running_after_first {i : Instr} {rest : List Instr} {s u t : State} (hs : s.phase = .running)
    (hu : exec i s = .next u) (hrest : execAll rest u = .next t) (ht : t.phase = .running) :
    u.phase = .running ∧ u.cfgr = s.cfgr := by
  constructor
  · rcases (exec_ends hu).transition with ⟨hphase, _⟩ | ⟨_, hphase, _⟩ | ⟨_, hphase, _⟩
    · exact hphase.trans hs
    · exact hphase
    · simp [execAll_failed hphase hrest] at ht
  · rcases (exec_ends hu).cfgr_eq_or_accepted with hcfgr | ⟨hun, _⟩
    · exact hcfgr
    · simp [hs] at hun

/-- Along a run in RUNNING the history takes in the outcomes of the run's GPU and HPU commands, in order. -/
theorem execAll_history {run : List Instr} {s t : State} {c : Cfgr} {g : Nat} (hs : s.phase = .running)
    (hc : s.cfgr = some c) (hg : s.ghr = some g) (h : execAll run s = .next t) (ht : t.phase = .running) :
    t.ghr = some ((run.filterMap historyOutcome).foldl (historyNext c.n) g) := by
  induction run generalizing s g with
  | nil =>
    cases h
    exact hg
  | cons i rest ih =>
    obtain ⟨u, hu, hrest⟩ := execAll_cons_next h
    obtain ⟨hurun, hucfgr⟩ := running_after_first hs hu hrest ht
    cases ho : historyOutcome i with
    | none =>
      rw [List.filterMap_cons_none ho]
      exact ih hurun (hucfgr.trans hc) ((exec_keeps_history ho (by simp [hs]) hu).trans hg) hrest
    | some o =>
      rw [List.filterMap_cons_some ho, List.foldl_cons]
      refine ih hurun (hucfgr.trans hc) ?_ hrest
      rcases exec_updates_history ho hu hc with hshort | hghr
      · simp [hshort.phase_eq] at hurun
      · rw [hghr, hg, Option.map_some]

/-! ### GPU that completes (R95) -/

theorem execGpu_of_admitted {a : Nat} {o : BranchOutcome} {s : State} {c : Cfgr} {pm mp g : Nat} {gt : Table}
    (hadm : Admitted .gshare o s c pm mp) (hgt : s.gt = some gt) (hg : s.ghr = some g) :
    execGpu a o s = .next (State.respond
      { s with
        pm := some (pm + 1)
        mp := some (countMiss mp (pred (gt.read (idxG a c.m1 c.n g))) o)
        gt := some (gt.write (idxG a c.m1 c.n g) (upd (gt.read (idxG a c.m1 c.n g)) o))
        ghr := some (historyNext c.n g o) }
      (.pred (pred (gt.read (idxG a c.m1 c.n g))))) := by
  simp [execGpu, predictWith_admitted hadm, hgt, hg]

/-! ### A malformed outcome (R94, R106) -/

@[simp] theorem countMiss_malformed (mp : Nat) (p : Prediction) : countMiss mp p .x = mp := rfl

/-- Writing back what an entry holds leaves every entry as it reads. -/
@[simp] theorem Table.read_write_read (u : Table) (i : Nat) : (u.write i (u.read i)).read = u.read := by
  funext j
  by_cases hj : j = i
  · rw [hj, Table.read_write_same]
  · exact Table.read_write_other hj

/-- One prediction counted, no miss, and every entry of every table as it was. -/
structure CountsWithoutTraining (s t : State) : Prop where
  mp : t.mp = s.mp
  pm : t.pm = s.pm.map (· + 1)
  bt : t.bt.map Table.read = s.bt.map Table.read
  gt : t.gt.map Table.read = s.gt.map Table.read
  ct : t.ct.map Table.read = s.ct.map Table.read

theorem exec_malformed {i : Instr} {a : Nat} {s t : State} (hi : i = .bpu a .x ∨ i = .gpu a .x ∨ i = .hpu a .x)
    (h : exec i s = .next t) : StopsShort s t ∨ CountsWithoutTraining s t := by
  rcases hi with rfl | rfl | rfl
  · refine (execBpu_next h).imp_right ?_
    rintro ⟨c, pm, mp, bt, hadm, hbt, rfl⟩
    exact ⟨by simp [hadm.hasMp], by simp [hadm.hasPm], by simp [hbt], rfl, rfl⟩
  · refine (execGpu_next h).imp_right ?_
    rintro ⟨c, pm, mp, gt, g, hadm, hgt, _, rfl⟩
    exact ⟨by simp [hadm.hasMp], by simp [hadm.hasPm], rfl, by simp [hgt], rfl⟩
  · refine (execHpu_next h).imp_right ?_
    rintro ⟨c, pm, mp, bt, gt, ct, g, p, hadm, hbt, hgt, hct, _, _, rfl⟩
    exact ⟨by simp [hadm.hasMp], by simp [hadm.hasPm], by simp [hbt, apply_ite Table.read],
      by simp [hgt, apply_ite Table.read], by simp [hct]⟩

theorem read_eq_of_map_read_eq {before after : Option Table} {u u' : Table}
    (h : after.map Table.read = before.map Table.read) (hu : before = some u) (hu' : after = some u') (j : Nat) :
    u'.read j = u.read j := by
  subst hu hu'
  exact congrFun (Option.some.inj h) j

/-! ### Gshare without history against bimodal (R95 with N = 0, R84) -/

/-- A gshare block `g` without history stands to a bimodal block `b` of the same width as its copy: all that predict commands
read is the same. FAULT is read in FAILED alone. -/
structure CopiesBimodal (cb cg : Cfgr) (b g : State) : Prop where
  phase : g.phase = b.phase
  fault : b.phase = .failed → g.fault = b.fault
  params : g.params = b.params
  cfgrB : b.cfgr = some cb
  cfgrG : g.cfgr = some cg
  variantB : cb.variant = .bimodal
  variantG : cg.variant = .gshare
  noHistory : cg.n.toNat = 0
  width : cb.m2 = cg.m1
  table : g.gt = b.bt
  ghr : g.ghr = some 0
  pm : g.pm = b.pm
  mp : g.mp = b.mp

/-- If the bimodal block goes on, so does its copy, with the same new responses, and it is a copy again. -/
def Copied (cb cg : Cfgr) (b g : State) (rb rg : Result) : Prop :=
  ∀ b', rb = .next b' → ∃ g' more, rg = .next g' ∧ CopiesBimodal cb cg b' g' ∧
    b'.responses = b.responses ++ more ∧ g'.responses = g.responses ++ more

section
variable {cb cg : Cfgr} {b g : State}

/-- A block that stops has nothing to copy. -/
theorem copied_fault (f : Fault) (rg : Result) : Copied cb cg b g (.fault f) rg := fun _ h => nomatch h

theorem CopiesBimodal.answerFailed (hcopy : CopiesBimodal cb cg b g) (hp : b.phase = .failed) :
    Copied cb cg b g (.next b.answerFailed) (.next g.answerFailed) := by
  rintro _ ⟨⟩
  refine ⟨_, [.failed b.fault], rfl, { hcopy with }, rfl, ?_⟩
  rw [State.answerFailed_responses, hcopy.fault hp]

theorem CopiesBimodal.raise (hcopy : CopiesBimodal cb cg b g) (k : FaultCode) :
    Copied cb cg b g (.next (b.raise k)) (.next (g.raise k)) := by
  rintro _ ⟨⟩
  exact ⟨_, [.fault k], rfl, { hcopy with phase := rfl, fault := fun _ => rfl }, rfl, rfl⟩

/-- The checks of a predict command come out alike in a block and its copy, and leave the bodies to compare. -/
theorem CopiesBimodal.predictWith (hcopy : CopiesBimodal cb cg b g) (o : BranchOutcome)
    {bodyB bodyG : Cfgr → Nat → Nat → Result}
    (hbody : ∀ pm mp, Copied cb cg b g (bodyB cb pm mp) (bodyG cg pm mp)) :
    Copied cb cg b g (predictWith .bimodal o b bodyB) (predictWith .gshare o g bodyG) := by
  unfold Machine.predictWith
  rw [hcopy.phase, hcopy.params, hcopy.cfgrB, hcopy.cfgrG, hcopy.pm, hcopy.mp]
  cases hp : b.phase with
  | failed => exact hcopy.answerFailed hp
  | unconfigured => exact hcopy.raise _
  | running =>
    cases b.pm with
    | none => exact copied_fault _ _
    | some pm =>
      cases b.mp with
      | none => exact copied_fault _ _
      | some mp =>
        simp only [hcopy.variantB, hcopy.variantG, ne_eq, not_true_eq_false, if_false]
        split
        · exact hcopy.raise _
        · split
          · exact hcopy.raise _
          · exact hbody pm mp

theorem CopiesBimodal.idxG_eq (hcopy : CopiesBimodal cb cg b g) (a : Nat) : idxG a cg.m1 cg.n 0 = idxB a cb.m2 := by
  rw [idxG_of_no_history hcopy.noHistory, hcopy.width]
  rfl

/-- GPU in the copy does what BPU does in the bimodal block. -/
theorem CopiesBimodal.exec (hcopy : CopiesBimodal cb cg b g) (a : Nat) (o : BranchOutcome) :
    Copied cb cg b g (exec (.bpu a o) b) (exec (.gpu a o) g) := by
  refine hcopy.predictWith o fun pm mp => ?_
  rw [hcopy.table, hcopy.ghr]
  cases b.bt with
  | none => exact copied_fault _ _
  | some bt =>
    rintro _ ⟨⟩
    simp only [hcopy.idxG_eq, historyNext_of_no_bits hcopy.noHistory]
    exact ⟨_, [.pred (pred (bt.read (idxB a cb.m2)))], rfl,
      { hcopy with table := rfl, ghr := rfl, pm := rfl, mp := rfl }, rfl, rfl⟩

/-- Over a list of records the gshare run copies the bimodal one. -/
theorem CopiesBimodal.execAll (hcopy : CopiesBimodal cb cg b g) (records : List (Nat × BranchOutcome)) :
    Copied cb cg b g (execAll (records.map fun r => .bpu r.1 r.2) b) (execAll (records.map fun r => .gpu r.1 r.2) g) := by
  induction records generalizing b g with
  | nil =>
    rintro _ ⟨⟩
    exact ⟨g, [], rfl, hcopy, (List.append_nil _).symm, (List.append_nil _).symm⟩
  | cons r rest ih =>
    intro tb h
    obtain ⟨b₁, hb₁, hrestB⟩ := execAll_cons_next h
    obtain ⟨g₁, x, hg₁, hcopy₁, hrespB₁, hrespG₁⟩ := hcopy.exec r.1 r.2 b₁ hb₁
    obtain ⟨tg, more, hrestG, hcopy₂, hrespB₂, hrespG₂⟩ := ih hcopy₁ tb hrestB
    refine ⟨tg, x ++ more, ?_, hcopy₂, ?_, ?_⟩
    · rw [List.map_cons, Machine.execAll, hg₁]
      exact hrestG
    · rw [hrespB₂, hrespB₁, List.append_assoc]
    · rw [hrespG₂, hrespG₁, List.append_assoc]

end

/-! ### The settled statements -/

/-- Settles O19: the PC bits are the word index of width M1, and the history enters them as one XOR (`xor_high_bits`). -/
theorem gshareIndex : Obligations.GshareIndex := by
  intro a m1 n g hn hg
  refine ⟨wordIndex_eq_and_mask a _, rfl, fun addrW h2 ha => ⟨fun _ => wordIndex_eq_bits a _, fun hw => ?_⟩,
    fun h0 => idxG_of_no_history h0 a m1 g, fun h1 => idxG_of_history h1 a m1 g, idxG_eq_xor hg a m1, idxG_lt hn hg⟩
  exact (wordIndex_eq_wordAddress h2 ha hw.le).trans (wordAddress_eq_bits h2 ha)

/-- Settles O31: a GPU stops short, which touches PHASE and FAULT alone, or writes PM, MP, GHR and the one entry of GT it
indexes. -/
theorem gpuFrame : Obligations.GpuFrame := by
  intro s t a o h
  obtain ⟨r, hresp, hpending, hparams, _⟩ := exec_ends h
  rcases execGpu_next h with hshort | ⟨c, pm, mp, gt, g, hadm, hgt, hg, rfl⟩
  · obtain ⟨hphase, hcfgr, hbt, hgt, hct, hghr, hpm, hmp⟩ := hshort.frame
    refine ⟨hparams, hpending, hcfgr, hbt, hct, ⟨r, hresp⟩,
      .inr ⟨hshort.response_ne_pred, hphase, hshort.fault_eq, hgt, hghr, hpm, hmp⟩,
      fun c g gt gt' _ _ h₁ h₂ => ?_, by rw [hgt], by rw [hghr]⟩
    obtain rfl : gt = gt' := Option.some.inj ((hgt.trans h₁).symm.trans h₂)
    exact ⟨rfl, fun _ _ => rfl⟩
  · refine ⟨rfl, rfl, rfl, rfl, rfl, ⟨r, hresp⟩, .inl ⟨⟨_, rfl⟩, rfl, rfl⟩, ?_, by simp [hgt], by simp [hg]⟩
    rintro c₁ g₁ gt₁ _ hc₁ hg₁ hgt₁ ⟨⟩
    obtain rfl : c = c₁ := Option.some.inj (hadm.hasCfgr.symm.trans hc₁)
    obtain rfl : g = g₁ := Option.some.inj (hg.symm.trans hg₁)
    obtain rfl : gt = gt₁ := Option.some.inj (hgt.symm.trans hgt₁)
    exact ⟨Table.write_fill _ _ _, fun j hj => Table.read_write_other hj⟩

/-- Settles O36: below the top every bit comes from the place above, and the top bit is the outcome (`testBit_historyNext`). -/
theorem historyShift : Obligations.HistoryShift := by
  intro s t a o i c g p hi h hpred hc hn hg hglt
  refine ⟨_, exec_updates_history_of_pred (historyOutcome_of_predict hi) h hpred hc hg, ?_, ?_⟩
  · apply Nat.eq_of_testBit_eq
    intro j
    have hlow : c.n.toNat - 2 + 1 - 0 = c.n.toNat - 1 := by omega
    rw [testBit_bits, testBit_bits, testBit_historyNext (by omega) hglt, hlow, Nat.add_sub_cancel, Nat.zero_add,
      Nat.add_comm 1 j]
    by_cases hj : j < c.n.toNat - 1
    · have hne : j + 1 ≠ c.n.toNat := by omega
      simp [hne]
    · simp [hj]
  · have htop : c.n.toNat - 1 + 1 = c.n.toNat := by omega
    rw [bits_one_bit, testBit_historyNext (by omega) hglt, if_pos htop]
    cases o <;> rfl

/-- Settles O37: the update of a history of no bits is the identity, its range holds 0 alone, and the index leaves it out. -/
theorem historyOfNoBits : Obligations.HistoryOfNoBits := by
  refine ⟨fun s t a o c i hi h hc hn => ?_, fun s c g hs hc hn hg => ?_, fun a m1 n g hn => idxG_of_no_history hn a m1 g⟩
  · rcases exec_updates_history (historyOutcome_of_predict hi) h hc with hshort | hghr
    · exact hshort.ghr_eq
    · simpa only [historyNext_of_no_bits hn, Option.map_id'] using hghr
  · have hlt : g < 2 ^ c.n.toNat := lt_of_historyInv (hg ▸ (hs.engine hc).ghr)
    simpa [hn] using hlt

/-- Settles O38: the run's outcomes are entered in order (`execAll_history`) and then stand from the top bit down
(`testBit_foldl_historyNext`). -/
theorem historyWindow : Obligations.HistoryWindow := by
  intro run s t c hs hc hg h ht
  exact ⟨_, execAll_history hs hc hg h ht, fun k hk => testBit_foldl_historyNext _ hk⟩

/-- Settles O39: `upd`, `credit` and the miss count do nothing with X, and the history shifts in a 0. -/
theorem malformedOutcomeIsNoOpUpdate : Obligations.MalformedOutcomeIsNoOpUpdate := by
  intro s t a i p hi h hpred
  rcases exec_malformed hi h with hshort | hcounts
  · exact absurd hpred (hshort.response_ne_pred p)
  refine ⟨hcounts.mp, hcounts.pm, fun u u' htables j => ?_, fun c g hi' hc hn hg => ?_⟩
  · rcases htables with ⟨hu, hu'⟩ | ⟨hu, hu'⟩ | ⟨hu, hu'⟩
    · exact read_eq_of_map_read_eq hcounts.bt hu hu' j
    · exact read_eq_of_map_read_eq hcounts.gt hu hu' j
    · exact read_eq_of_map_read_eq hcounts.ct hu hu' j
  · rw [exec_updates_history_of_pred (historyOutcome_of_predict hi') h hpred hc hg, historyNext_malformed hn]

/-- Settles O40: such blocks are copies (`CopiesBimodal`), and a run over records keeps them so. -/
theorem gshareWithoutHistoryIsBimodal : Obligations.GshareWithoutHistoryIsBimodal := by
  intro records b g tb cb cg hbrun hgrun hparams hcb hvb hcg hvg hn hwidth htable hghr hpm hmp h
  have hcopy : CopiesBimodal cb cg b g :=
    { phase := hgrun.trans hbrun.symm, fault := fun hfailed => by simp [hbrun] at hfailed, params := hparams.symm,
      cfgrB := hcb, cfgrG := hcg, variantB := hvb, variantG := hvg, noHistory := hn, width := hwidth,
      table := htable.symm, ghr := hghr, pm := hpm.symm, mp := hmp.symm }
  obtain ⟨tg, more, hrun, hcopy', hrespB, hrespG⟩ := hcopy.execAll records tb h
  exact ⟨tg, more, hrun, hcopy'.phase, hcopy'.table, hcopy'.pm, hcopy'.mp, hcopy'.ghr, hrespB, hrespG⟩

/-- Settles O27: such a GPU is admitted by every check, and its effect is the state written out. -/
theorem gpuPredictsAndUpdates : Obligations.GpuPredictsAndUpdates := by
  intro s a o c gt g pm mp hp hc hv hgt hg hpm hmp hfull htol
  rw [← historyNext_eq_ite]
  exact execGpu_of_admitted ⟨hp, hc, hpm, hmp, hv, hfull, htol⟩ hgt hg

end Sys2Proof.Machine
end

section
/-! SUPPORT. The hybrid predictor: the chooser's index, selection and credit, what HPU does and leaves unchanged, and that it
trains one table. With them the settled statements of spec/43_hybrid.md. -/

namespace Sys2Proof.Machine

/-! ### The chooser (R102, R105) -/

theorem selectsGshare_iff (c : Counter) : selectsGshare c = true ↔ 2 ≤ c.toNat := decide_eq_true_iff

/-- Of the two predictions a valid outcome agrees with exactly one. -/
theorem agrees_eq_iff {o : BranchOutcome} (ho : valid o = true) (p q : Prediction) : agrees p o = agrees q o ↔ p = q := by
  cases o with
  | x => cases ho
  | t | nt => cases p <;> cases q <;> decide

section
variable {pb pg : Prediction} {o : BranchOutcome} (c : Counter)

theorem credit_of_only_gshare_right (ho : valid o = true) (hg : agrees pg o = true) (hb : agrees pb o = false) :
    credit c pb pg o = countUp c := by
  simp [credit, ho, hg, hb]

theorem credit_of_only_bimodal_right (ho : valid o = true) (hg : agrees pg o = false) (hb : agrees pb o = true) :
    credit c pb pg o = countDown c := by
  simp [credit, ho, hg, hb]

/-- Sub-predictions that are both right or both wrong move nothing, nor do any under X, which agrees with neither. -/
theorem credit_of_agrees_eq (h : agrees pb o = agrees pg o) : credit c pb pg o = c := by
  simp [credit, h]

end

/-! ### HPU that completes (R107) -/

theorem execHpu_of_admitted {a : Nat} {o : BranchOutcome} {s : State} {c : Cfgr} {pm mp g : Nat} {bt gt ct : Table}
    (hadm : Admitted .hybrid o s c pm mp) (hbt : s.bt = some bt) (hgt : s.gt = some gt) (hct : s.ct = some ct)
    (hg : s.ghr = some g) :
    let ib := idxB a c.m2
    let ig := idxG a c.m1 c.n g
    let ic := idxC a c.k
    let selg := selectsGshare (ct.read ic)
    let p := if selg then pred (gt.read ig) else pred (bt.read ib)
    execHpu a o s = .next (State.respond
      { s with
        pm := some (pm + 1)
        mp := some (countMiss mp p o)
        bt := some (if selg then bt else bt.write ib (upd (bt.read ib) o))
        gt := some (if selg then gt.write ig (upd (gt.read ig) o) else gt)
        ghr := some (historyNext c.n g o)
        ct := some (ct.write ic (credit (ct.read ic) (pred (bt.read ib)) (pred (gt.read ig)) o)) }
      (.pred p)) := by
  simp [execHpu, predictWith_admitted hadm, hbt, hgt, hct, hg]

/-! ### The cells HPU may change (R103, R108) -/

/-- If the table exists before and after, all but its entry `i` is as it was. -/
def KeptBut (i : Nat) (before after : Option Table) : Prop :=
  ∀ u u', before = some u → after = some u' → u'.fill = u.fill ∧ ∀ j, j ≠ i → u'.read j = u.read j

theorem KeptBut.of_eq {i : Nat} {before after : Option Table} (h : after = before) : KeptBut i before after := by
  intro u u' hu hu'
  obtain rfl : u = u' := Option.some.inj ((h.trans hu).symm.trans hu')
  exact ⟨rfl, fun _ _ => rfl⟩

theorem KeptBut.of_write {i : Nat} {before : Option Table} {u : Table} (hu : before = some u) (v : Counter) :
    KeptBut i before (some (u.write i v)) := by
  rintro u₁ _ hu₁ ⟨⟩
  obtain rfl : u = u₁ := Option.some.inj (hu.symm.trans hu₁)
  exact ⟨Table.write_fill _ _ _, fun _ hj => Table.read_write_other hj⟩

/-- Only the entry `i` can read otherwise than before, so two such entries are one. -/
theorem KeptBut.changed_unique {i : Nat} {before after : Option Table} {u u' : Table} (h : KeptBut i before after)
    (hu : before = some u) (hu' : after = some u') (j k : Nat) (hj : u'.read j ≠ u.read j) (hk : u'.read k ≠ u.read k) :
    j = k := by
  obtain ⟨_, hread⟩ := h u u' hu hu'
  have changed_eq (l : Nat) (hl : u'.read l ≠ u.read l) : l = i := not_imp_comm.1 (hread l) hl
  exact (changed_eq j hj).trans (changed_eq k hk).symm

/-- The cells an HPU for address `a` may change: one of each table at the most, and none of BT or none of GT. -/
structure TrainsHybrid (a : Nat) (c : Cfgr) (s t : State) : Prop where
  bt : KeptBut (idxB a c.m2) s.bt t.bt
  gt : ∀ g, s.ghr = some g → KeptBut (idxG a c.m1 c.n g) s.gt t.gt
  ct : KeptBut (idxC a c.k) s.ct t.ct
  oneTable : t.bt = s.bt ∨ t.gt = s.gt

theorem execHpu_trains {a : Nat} {o : BranchOutcome} {s t : State} {c : Cfgr} (h : execHpu a o s = .next t)
    (hc : s.cfgr = some c) : TrainsHybrid a c s t := by
  rcases execHpu_next h with hshort | ⟨c₁, _, _, bt, gt, ct, g, _, hadm, hbt, hgt, hct, hg, _, rfl⟩
  · obtain ⟨_, _, hbt, hgt, hct, _⟩ := hshort.frame
    exact ⟨.of_eq hbt, fun _ _ => .of_eq hgt, .of_eq hct, .inl hbt⟩
  · obtain rfl : c = c₁ := Option.some.inj (hc.symm.trans hadm.hasCfgr)
    cases hsel : selectsGshare (ct.read (idxC a c.k)) with
    | true =>
      refine ⟨.of_eq (by simp [hbt]), fun g₁ hg₁ => ?_, .of_write hct _, .inl (by simp [hbt])⟩
      obtain rfl : g = g₁ := Option.some.inj (hg.symm.trans hg₁)
      exact .of_write hgt _
    | false => exact ⟨.of_write hbt _, fun _ _ => .of_eq (by simp [hgt]), .of_write hct _, .inr (by simp [hgt])⟩

/-- Where both sub-predictions are right, or neither is, HPU leaves every chooser entry as it reads. -/
theorem execHpu_keeps_chooser {a : Nat} {o : BranchOutcome} {s t : State} {c : Cfgr} {bt gt : Table} {g : Nat}
    (h : execHpu a o s = .next t) (hc : s.cfgr = some c) (hbt : s.bt = some bt) (hgt : s.gt = some gt)
    (hg : s.ghr = some g)
    (heq : agrees (pred (bt.read (idxB a c.m2))) o = agrees (pred (gt.read (idxG a c.m1 c.n g))) o) :
    t.ct.map Table.read = s.ct.map Table.read := by
  rcases execHpu_next h with hshort | ⟨c₁, _, _, bt₁, gt₁, ct, g₁, _, hadm, hbt₁, hgt₁, hct, hg₁, _, rfl⟩
  · obtain ⟨_, _, _, _, hct, _⟩ := hshort.frame
    rw [hct]
  · obtain rfl : c = c₁ := Option.some.inj (hc.symm.trans hadm.hasCfgr)
    obtain rfl : bt = bt₁ := Option.some.inj (hbt.symm.trans hbt₁)
    obtain rfl : gt = gt₁ := Option.some.inj (hgt.symm.trans hgt₁)
    obtain rfl : g = g₁ := Option.some.inj (hg.symm.trans hg₁)
    simp [hct, credit_of_agrees_eq _ heq]

/-! ### The settled statements -/

/-- Settles O20: the index is the word index of width K, the whole word address where K reaches past it. -/
theorem chooserIndex : Obligations.ChooserIndex := fun a k =>
  ⟨wordIndex_eq_and_mask a _, rfl, fun _ _ _ _ => wordIndex_eq_bits a _,
    fun _ h2 ha hk => (wordIndex_eq_wordAddress h2 ha hk.le).trans (wordAddress_eq_bits h2 ha), idxC_lt a k⟩

/-- Settles O32: an HPU stops short, which touches PHASE and FAULT alone, or writes PM, MP, GHR and the cells of
`TrainsHybrid`. -/
theorem hpuFrame : Obligations.HpuFrame := by
  intro s t a o h
  obtain ⟨r, hresp, hpending, hparams, _⟩ := exec_ends h
  have htrains {c : Cfgr} (hc : s.cfgr = some c) : TrainsHybrid a c s t := execHpu_trains h hc
  rcases execHpu_next h with hshort | ⟨_, _, _, bt, gt, ct, g, _, _, hbt, hgt, hct, hg, _, rfl⟩
  · obtain ⟨hphase, hcfgr, hbt, hgt, hct, hghr, hpm, hmp⟩ := hshort.frame
    exact ⟨hparams, hpending, hcfgr, ⟨r, hresp⟩,
      .inr ⟨hshort.response_ne_pred, hphase, hshort.fault_eq, hbt, hgt, hct, hghr, hpm, hmp⟩,
      fun _ _ _ hc => (htrains hc).bt _ _, fun _ g _ _ hc hg => (htrains hc).gt g hg _ _,
      fun _ _ _ hc => (htrains hc).ct _ _, by rw [hbt], by rw [hgt], by rw [hct], by rw [hghr]⟩
  · exact ⟨rfl, rfl, rfl, ⟨r, hresp⟩, .inl ⟨⟨_, rfl⟩, rfl, rfl⟩,
      fun _ _ _ hc => (htrains hc).bt _ _, fun _ g _ _ hc hg => (htrains hc).gt g hg _ _,
      fun _ _ _ hc => (htrains hc).ct _ _, by simp [hbt], by simp [hgt], by simp [hct], by simp [hg]⟩

/-- Settles O33: the cells that may change are those of `TrainsHybrid`, and the chooser's only on a disagreement
(`execHpu_keeps_chooser`). -/
theorem hybridTrainsOneTable : Obligations.HybridTrainsOneTable := by
  intro s t a o c bt gt ct bt' gt' ct' g h hc hbt hgt hct hg hbt' hgt' hct'
  have htrains := execHpu_trains h hc
  refine ⟨fun i j hi => ?_, htrains.bt.changed_unique hbt hbt', (htrains.gt g hg).changed_unique hgt hgt',
    htrains.ct.changed_unique hct hct', fun i hi heq => hi ?_⟩
  · rcases htrains.oneTable with hsame | hsame
    · exact absurd (read_eq_of_map_read_eq (congrArg _ hsame) hbt hbt' i) hi
    · exact read_eq_of_map_read_eq (congrArg _ hsame) hgt hgt' j
  · exact read_eq_of_map_read_eq (execHpu_keeps_chooser h hc hbt hgt hg heq) hct hct' i

/-- Settles O22, row by row; sub-predictions that agree are right or wrong together, so they give no credit. -/
theorem chooserCredit : Obligations.ChooserCredit := by
  intro c pb pg o ho
  refine ⟨fun hg hb => ?_, fun hg hb => ?_, fun hg hb => credit_of_agrees_eq c (hb.trans hg.symm),
    fun hg hb => credit_of_agrees_eq c (hb.trans hg.symm), not_congr (agrees_eq_iff ho pg pb), fun hmoved heq => ?_⟩
  · rw [credit_of_only_gshare_right c ho hg hb, countUp_toNat]
  · rw [credit_of_only_bimodal_right c ho hg hb, countDown_toNat, Nat.max_zero]
  · exact hmoved (credit_of_agrees_eq c (by rw [heq]))

/-- Settles O28: such an HPU is admitted by every check, and its effect is the state written out. -/
theorem hpuPredictsAndUpdates : Obligations.HpuPredictsAndUpdates := by
  intro s a o c bt gt ct g pm mp hp hc hv hbt hgt hct hg hpm hmp hfull htol
  have hexec := execHpu_of_admitted (a := a) ⟨hp, hc, hpm, hmp, hv, hfull, htol⟩ hbt hgt hct hg
  simp only [selectsGshare_iff, historyNext_eq_ite] at hexec
  exact hexec

end Sys2Proof.Machine
end

section
/-! SUPPORT. The read-out commands: what SNAP and RATE answer, and that they change nothing; with it the settled statements of
spec/44_snapshot.md. -/

namespace Sys2Proof.Machine

/-! ### What a read-out command answers -/

/-- All that SNAP or RATE can do: respond. -/
theorem exec_readOut_next {i : Instr} {s t : State} (hi : i = .snap ∨ i = .rate) (h : exec i s = .next t) :
    ∃ r, ReadOutResponse s r ∧ t = s.respond r := by
  rcases hi with rfl | rfl
  · exact execSnap_next h
  · exact execRate_next h

/-- A RATE response is `100 * MP / PM` of a RUNNING block that has made a prediction (R117). -/
theorem ReadOutResponse.of_rate {s : State} {num den : Nat} (h : ReadOutResponse s (.rate num den)) :
    ∃ mp, s.phase = .running ∧ s.pm = some den ∧ s.mp = some mp ∧ den ≠ 0 ∧ num = 100 * mp := by
  rcases h with ⟨_, hr⟩ | ⟨_, hr⟩ | ⟨_, _, hr⟩ | ⟨pm, mp, hp, hpm, hmp, ⟨_, _, _, _, hr⟩ | ⟨h0, hr⟩⟩ <;> cases hr
  exact ⟨mp, hp, hpm, hmp, h0, rfl⟩

/-- RATE in RUNNING, once a prediction was made. -/
theorem execRate_of_running {s : State} {pm mp : Nat} (hp : s.phase = .running) (hpm : s.pm = some pm)
    (hmp : s.mp = some mp) (h0 : pm ≠ 0) : execRate s = .next (s.respond (.rate (100 * mp) pm)) := by
  simp [execRate, hp, hpm, hmp, h0]

/-- No more mispredictions than predictions (R30). -/
theorem State.Inv.mp_le_pm {s : State} {pm mp : Nat} (hs : s.Inv) (hp : s.phase = .running) (hpm : s.pm = some pm)
    (hmp : s.mp = some mp) : mp ≤ pm := by
  obtain ⟨c, _, _, _, _, _, e⟩ := hs.running hp
  have hcounters := e.counters
  rw [hpm, hmp] at hcounters
  exact of_decide_eq_true (Bool.and_eq_true_iff.1 hcounters).1

/-! ### The tables of a snapshot (R115) -/

section
variable {s : State} {c : Cfgr} {bt gt ct : Table}

theorem snapshotTables_bimodal (hv : c.variant = .bimodal) (hbt : s.bt = some bt) :
    snapshotTables c s = some [⟨.bimodal, c.m2.toNat, bt⟩] := by
  simp [snapshotTables, hv, hbt]

theorem snapshotTables_gshare (hv : c.variant = .gshare) (hgt : s.gt = some gt) :
    snapshotTables c s = some [⟨.gshare, c.m1.toNat, gt⟩] := by
  simp [snapshotTables, hv, hgt]

theorem snapshotTables_hybrid (hv : c.variant = .hybrid) (hbt : s.bt = some bt) (hgt : s.gt = some gt)
    (hct : s.ct = some ct) :
    snapshotTables c s =
      some [⟨.chooser, c.k.toNat, ct⟩, ⟨.gshare, c.m1.toNat, gt⟩, ⟨.bimodal, c.m2.toNat, bt⟩] := by
  simp [snapshotTables, hv, hbt, hgt, hct]

end

/-! ### The settled statements -/

/-- Settles O45: the rate answered is `100 * MP` over `PM`, and the invariant has `MP ≤ PM`. -/
theorem rateIsAPercentage : Obligations.RateIsAPercentage := by
  intro s t num den hs h hrate
  obtain ⟨r, hr, rfl⟩ := exec_readOut_next (.inr rfl) h
  obtain rfl : r = .rate num den := by simpa using hrate
  obtain ⟨mp, hp, hpm, hmp, h0, rfl⟩ := hr.of_rate
  exact ⟨Nat.pos_of_ne_zero h0, Nat.mul_le_mul_left 100 (hs.mp_le_pm hp hpm hmp)⟩

/-- Settles O46: all that either command does is respond (`exec_readOut_next`). -/
theorem readOutCommandsFrame : Obligations.ReadOutCommandsFrame := by
  intro s t i hi h
  obtain ⟨r, _, ht⟩ := exec_readOut_next hi h
  exact ⟨r, ht⟩

/-- Settles O43: the tables of each variant are there, so SNAP reports them; their listing is the one stated. -/
theorem snapReports : Obligations.SnapReports := by
  intro s c pm mp hp hc hpm hmp reports
  have reports_listing {tables : List TableView} (ht : snapshotTables c s = some tables) :
      reports (SnapshotRecord.listing ⟨pm, mp, tables⟩) :=
    ⟨⟨pm, mp, tables⟩, execSnap_of_running hp hc hpm hmp ht, rfl, rfl, rfl⟩
  exact ⟨fun _ hv hbt => reports_listing (snapshotTables_bimodal hv hbt),
    fun _ hv hgt => reports_listing (snapshotTables_gshare hv hgt),
    fun _ _ _ hv hbt hgt hct => reports_listing (snapshotTables_hybrid hv hbt hgt hct)⟩

/-- Settles O44: `execRate_of_running`, the response written out. -/
theorem rateReports : Obligations.RateReports := fun _ _ _ hp hpm hmp h0 => execRate_of_running hp hpm hmp h0

end Sys2Proof.Machine
end

section
/-! SUPPORT. Faults and errors: what every command and word does to a block that is FAILED, what the checks of a predict
command answer, and which commands answer ERROR; with it the settled statements of spec/60_exceptions.md. -/

namespace Sys2Proof.Machine

/-! ### The checks of a predict command, one by one (R134) -/

section
variable {v : Variant} {o : BranchOutcome} {s : State} {c : Cfgr} {pm mp : Nat} {body : Cfgr → Nat → Nat → Result}

theorem predictWith_of_failed (hp : s.phase = .failed) : predictWith v o s body = .next s.answerFailed := by
  simp [predictWith, hp]

theorem predictWith_of_unconfigured (hp : s.phase = .unconfigured) :
    predictWith v o s body = .next (s.raise .notConfigured) := by
  simp [predictWith, hp]

variable (hp : s.phase = .running) (hc : s.cfgr = some c) (hpm : s.pm = some pm) (hmp : s.mp = some mp)
include hp hc hpm hmp

theorem predictWith_of_mismatch (hv : c.variant ≠ v) : predictWith v o s body = .next (s.raise .variantMismatch) := by
  simp [predictWith, hp, hc, hpm, hmp, hv]

theorem predictWith_of_full (hv : c.variant = v) (hfull : pm = 2 ^ s.params.cntW - 1) :
    predictWith v o s body = .next (s.raise .counterOverflow) := by
  simp [predictWith, hp, hc, hpm, hmp, hv, hfull]

theorem predictWith_of_malformed (hv : c.variant = v) (hfull : pm ≠ 2 ^ s.params.cntW - 1) (ho : o = .x)
    (hpolicy : s.params.malformedPolicy = .fault) :
    predictWith v o s body = .next (s.raise .malformedOutcome) := by
  simp [predictWith, hp, hc, hpm, hmp, hv, hfull, ho, hpolicy]

end

/-- Each predict command runs the checks of its variant. -/
theorem exec_eq_predictWith {v : Variant} {i : Instr} {a : Nat} {o : BranchOutcome}
    (hi : (v, i) = (.bimodal, .bpu a o) ∨ (v, i) = (.gshare, .gpu a o) ∨ (v, i) = (.hybrid, .hpu a o)) (s : State) :
    ∃ body, exec i s = predictWith v o s body := by
  rcases hi with h | h | h <;> cases h <;> exact ⟨_, rfl⟩

/-! ### A pending word -/

theorem step_of_word {s : State} {w : Nat} {rest : List HostInput} (hpend : s.pending = .command w :: rest) :
    step s = runWord w { s with pending := rest } := by
  simp only [step, hpend]

/-- A word ends as some command does: its own, or, if it is illegal, any that stops short. -/
theorem runWord_ends {w : Nat} {s t : State} (h : runWord w s = .next t) : ∃ i, Ends i s t := by
  unfold runWord at h
  split at h
  · rename_i i _
    exact ⟨i, exec_ends h⟩
  · cases h
    exact ⟨.snap, (illegalWord_stopsShort s).ends⟩
  · cases h

/-! ### A FAILED block (R133) -/

theorem exec_of_failed {s : State} (i : Instr) (hp : s.phase = .failed) : exec i s = .next s.answerFailed := by
  cases i with
  | cfg => exact execCfg_of_failed hp
  | bpu | gpu | hpu => exact predictWith_of_failed hp
  | snap => simp [exec, execSnap, hp]
  | rate => simp [exec, execRate, hp]

/-- A word of CMD_W bits is illegal or a command, at every parameter choice (R62). -/
theorem decode_illegal_or_command {p : Params} {w : Nat} (hw : w < 2 ^ p.cmdW) :
    (∃ why, decode p w = .illegal why) ∨ ∃ i, decode p w = .command i := by
  by_cases h76 : bits w 7 6 = 0
  · rcases opcode_cases (bits w 3 0) with hop | hop | ⟨_, hop⟩ | ⟨_, hop⟩
    · exact .inl ⟨_, decode_reservedOpcode hw h76 hop⟩
    · exact (cfgRow_illegalIff hw h76 hop).2
    · exact (predictRow_illegalIff hw h76 hop).2
    · exact (noOperandRow_illegalIff hw h76 hop).2
  · exact .inl ⟨_, decode_reservedSub hw h76⟩

theorem runWord_of_failed {s : State} {w : Nat} (hp : s.phase = .failed) (hw : w < 2 ^ s.params.cmdW) :
    runWord w s = .next s.answerFailed := by
  rcases decode_illegal_or_command hw with ⟨_, hill⟩ | ⟨i, hi⟩
  · simp only [runWord, hill, illegalWord_of_failed hp]
  · simp only [runWord, hi, exec_of_failed i hp]

/-- All that a step of a FAILED block can do: nothing, the hardware reset, or answer FAILED. -/
theorem step_next_of_failed {s t : State} (hp : s.phase = .failed) (h : step s = .next t) :
    t = s ∨ s.pending = .reset :: t.pending ∨ ∃ rest, t = State.answerFailed { s with pending := rest } := by
  rcases step_next h with ⟨_, rfl⟩ | ⟨_, hpend, rfl⟩ | ⟨_, rest, _, ⟨i, _, he⟩ | ⟨_, _, rfl⟩⟩
  · exact .inl rfl
  · exact .inr (.inl hpend)
  · rw [exec_of_failed (s := { s with pending := rest }) i hp] at he
    cases he
    exact .inr (.inr ⟨rest, rfl⟩)
  · exact .inr (.inr ⟨rest, illegalWord_of_failed hp⟩)

/-! ### Taking a sticky fault (R131) -/

/-- A command that answers FAULT has taken that sticky fault. -/
theorem Ends.raise_of_fault {i : Instr} {s t : State} {k : FaultCode} (h : Ends i s t)
    (hk : t.responses = s.responses ++ [.fault k]) : t = s.raise k ∧ k.sticky = true ∧ s.phase ≠ .failed := by
  obtain ⟨r, hresp, _, _, hend⟩ := h
  obtain rfl : r = .fault k := by simpa [hk] using hresp.symm
  rcases hend with ⟨_, _, _, hne, _⟩ | ⟨hp, k', hsticky, rfl, hk'⟩ | ⟨_, _, _, hok, _⟩
  · exact absurd rfl (hne k)
  · cases hk'
    exact ⟨rfl, hsticky, hp⟩
  · cases hok

/-! ### Answering an error (R132) -/

/-- A command that stops short answers no ERROR. -/
theorem StopsShort.response_ne_error {s t : State} (h : StopsShort s t) (k : FaultCode) :
    t.responses ≠ s.responses ++ [.error k] := by
  rcases h with ⟨_, rfl⟩ | ⟨_, _, _, rfl⟩ <;> simp

/-- Only SNAP and RATE answer ERROR: the other commands stop short, or answer OK or a prediction. -/
theorem readOut_of_exec_error {i : Instr} {s t : State} {k : FaultCode} (h : exec i s = .next t)
    (hk : t.responses = s.responses ++ [.error k]) : i = .snap ∨ i = .rate := by
  cases i with
  | cfg =>
    rcases execCfg_next h with hshort | ⟨_, _, _, _, rfl⟩
    · exact absurd hk (hshort.response_ne_error k)
    · simp at hk
  | bpu =>
    rcases execBpu_next h with hshort | ⟨_, _, _, _, _, _, rfl⟩
    · exact absurd hk (hshort.response_ne_error k)
    · simp at hk
  | gpu =>
    rcases execGpu_next h with hshort | ⟨_, _, _, _, _, _, _, _, rfl⟩
    · exact absurd hk (hshort.response_ne_error k)
    · simp at hk
  | hpu =>
    rcases execHpu_next h with hshort | ⟨_, _, _, _, _, _, _, _, _, _, _, _, _, _, rfl⟩
    · exact absurd hk (hshort.response_ne_error k)
    · simp at hk
  | snap => exact .inl rfl
  | rate => exact .inr rfl

/-- The codes SNAP and RATE answer as errors. -/
theorem ReadOutResponse.of_error {s : State} {k : FaultCode} (h : ReadOutResponse s (.error k)) :
    k = .notConfigured ∨ k = .divisionUndefined := by
  rcases h with ⟨_, hr⟩ | ⟨_, hr⟩ | ⟨_, _, hr⟩ | ⟨_, _, _, _, _, ⟨_, _, _, _, hr⟩ | ⟨_, hr⟩⟩ <;> cases hr
  · exact .inl rfl
  · exact .inr rfl

theorem exec_readOut_of_unconfigured {i : Instr} {s : State} (hi : i = .snap ∨ i = .rate) (hp : s.phase = .unconfigured) :
    exec i s = .next (s.error .notConfigured) := by
  rcases hi with rfl | rfl
  · simp [exec, execSnap, hp]
  · simp [exec, execRate, hp]

/-- RATE in RUNNING, before any prediction was made. -/
theorem execRate_of_no_predictions {s : State} {mp : Nat} (hp : s.phase = .running) (hpm : s.pm = some 0)
    (hmp : s.mp = some mp) : execRate s = .next (s.error .divisionUndefined) := by
  simp [execRate, hp, hpm, hmp]

/-! ### The settled statements -/

/-- Settles O29: the three commands run the same checks (`exec_eq_predictWith`), each clause the answer of one of them. -/
theorem predictChecksInOrder : Obligations.PredictChecksInOrder := by
  intro s a o v i hi faulted
  obtain ⟨body, hexec⟩ := exec_eq_predictWith hi s
  rw [hexec]
  exact ⟨predictWith_of_failed, predictWith_of_unconfigured, fun _ _ _ hp hc hpm hmp =>
    ⟨predictWith_of_mismatch hp hc hpm hmp, predictWith_of_full hp hc hpm hmp, predictWith_of_malformed hp hc hpm hmp⟩⟩

/-- Settles O49: a FAILED block answers every word FAILED (`runWord_of_failed`), and of its steps (`step_next_of_failed`) only
the hardware reset writes PHASE. -/
theorem failedAnswersEveryWord : Obligations.FailedAnswersEveryWord := by
  constructor
  · intro s w rest hp hpend hw
    rw [step_of_word hpend]
    exact runWord_of_failed (s := { s with pending := rest }) hp hw
  · intro s t hp h hne
    rcases step_next_of_failed hp h with rfl | hreset | ⟨_, rfl⟩
    · exact absurd hp hne
    · exact hreset
    · exact absurd hp hne

/-- Settles O50: a word, illegal or not, ends as commands do (`runWord_ends`), so FAULT(k) tells of a sticky fault taken;
in FAILED the steps are those of `step_next_of_failed`. -/
theorem stickyFaultEntry : Obligations.StickyFaultEntry := by
  constructor
  · intro s t w rest k hpend h hk
    rw [step_of_word hpend] at h
    obtain ⟨_, hends⟩ := runWord_ends h
    exact hends.raise_of_fault hk
  · intro s t hp hreset h
    rcases step_next_of_failed hp h with rfl | hpend | ⟨_, rfl⟩
    · rfl
    · exact absurd hpend (hreset _)
    · rfl

/-- Settles O51: SNAP and RATE only respond (`exec_readOut_next`), and no other command answers ERROR
(`readOut_of_exec_error`). -/
theorem nonStickyErrors : Obligations.NonStickyErrors := by
  refine ⟨fun _ _ hi hp => exec_readOut_of_unconfigured hi hp,
    fun _ _ hp hpm hmp => execRate_of_no_predictions hp hpm hmp, fun s t i k h hk => ?_⟩
  have hi := readOut_of_exec_error h hk
  obtain ⟨r, hr, rfl⟩ := exec_readOut_next hi h
  obtain rfl : r = .error k := by simpa using hk
  exact ⟨hi, hr.of_error, rfl⟩

/-- Settles O8: the case of `step` with nothing pending. -/
theorem idleStepChangesNothing : Obligations.IdleStepChangesNothing := by
  intro s hpend
  simp only [step, hpend]

end Sys2Proof.Machine
end

section
/-! SUPPORT. Hardware reset, the only way back in PHASE, and a SNAP that reads what the BPU before it wrote; with them the
settled statements of spec/70_reset_and_hazards.md. -/

namespace Sys2Proof.Machine

/-! ### The way out of FAILED and the way back to UNCONFIGURED (R31, R150) -/

/-- The transitions of PHASE that a word makes go from UNCONFIGURED to RUNNING or end in FAILED
(`phaseAndFaultTransitions`): what leaves FAILED or comes back to UNCONFIGURED is the hardware reset. -/
theorem reset_of_phase_back {s t : State} (h : step s = .next t) (hne : t.phase ≠ s.phase)
    (hback : s.phase = .failed ∨ t.phase = .unconfigured) : s.pending = .reset :: t.pending := by
  rcases phaseAndFaultTransitions.2 s t h with ⟨hkept, _⟩ | ⟨hs, ht, _⟩ | ⟨hs, ht, _⟩ | ⟨hpend, _⟩
  · exact absurd hkept hne
  · simp [hs, ht] at hback
  · simp [hs, ht] at hback
  · exact hpend

/-! ### SNAP after a BPU that completed (R153) -/

/-- BT as SNAP reports it once the entry of the address `a` is updated with the outcome `o`. -/
def bimodalUpdated (c : Cfgr) (bt : Table) (a : Nat) (o : BranchOutcome) : TableView :=
  ⟨.bimodal, c.m2.toNat, bt.write (idxB a c.m2) (upd (bt.read (idxB a c.m2)) o)⟩

theorem bimodalUpdated_values_at_idxB (c : Cfgr) (bt : Table) (a : Nat) (o : BranchOutcome) :
    (bimodalUpdated c bt a o).values[idxB a c.m2]? = some (upd (bt.read (idxB a c.m2)) o) :=
  (TableView.values_getElem? _ (idxB_lt a c.m2)).trans (congrArg some (Table.read_write_same ..))

theorem bimodalUpdated_values_elsewhere {c : Cfgr} {bt : Table} {a j : Nat} (o : BranchOutcome)
    (hj : j < 2 ^ c.m2.toNat) (hne : j ≠ idxB a c.m2) : (bimodalUpdated c bt a o).values[j]? = some (bt.read j) :=
  (TableView.values_getElem? _ hj).trans (congrArg some (Table.read_write_other hne))

/-- A BPU that answered a prediction leaves a block whose SNAP reports one prediction more and the updated BT. -/
theorem execSnap_after_bpu {s t : State} {a : Nat} {o : BranchOutcome} {p : Prediction} {c : Cfgr} {bt : Table} {pm : Nat}
    (hc : s.cfgr = some c) (hbt : s.bt = some bt) (hpm : s.pm = some pm) (h : execBpu a o s = .next t)
    (hpred : t.responses = s.responses ++ [.pred p]) :
    ∃ mp, execSnap t = .next (t.respond (.snapshot ⟨pm + 1, mp, [bimodalUpdated c bt a o]⟩)) := by
  rcases execBpu_next h with hshort | ⟨c', pm', mp, bt', hadm, hbt', rfl⟩
  · exact absurd hpred (hshort.response_ne_pred p)
  · obtain rfl : c' = c := Option.some.inj (hadm.hasCfgr.symm.trans hc)
    obtain rfl : pm' = pm := Option.some.inj (hadm.hasPm.symm.trans hpm)
    obtain rfl : bt' = bt := Option.some.inj (hbt'.symm.trans hbt)
    exact ⟨_, execSnap_of_running hadm.running hadm.hasCfgr rfl rfl (snapshotTables_bimodal hadm.variant rfl)⟩

/-! ### The settled statements -/

/-- Settles O2: the case of `step` with a reset pending, and `reset_of_phase_back` for both ways back. -/
theorem hardwareResetInAnyPhase : Obligations.HardwareResetInAnyPhase := by
  refine ⟨fun s rest hpend => ?_, fun s t h hs ht => reset_of_phase_back h (hs ▸ ht) (.inl hs),
    fun s t h hs ht => reset_of_phase_back h (ht ▸ hs.symm) (.inr ht)⟩
  simp only [step, hpend, State.hardwareReset]

/-- Settles O48: the record is that of `execSnap_after_bpu`, and its one table the updated BT, entry by entry. -/
theorem snapshotShowsLastUpdate : Obligations.SnapshotShowsLastUpdate := by
  intro s t a o p c bt pm hc hbt hpm h hpred
  obtain ⟨mp, hsnap⟩ := execSnap_after_bpu hc hbt hpm h hpred
  exact ⟨⟨pm + 1, mp, [bimodalUpdated c bt a o]⟩, (bimodalUpdated c bt a o).values, hsnap, rfl, rfl,
    TableView.values_length _, bimodalUpdated_values_at_idxB c bt a o, fun _ => bimodalUpdated_values_elsewhere o⟩

/-- Settles O1: the fields of `State.reset`, one by one. -/
theorem resetStateHoldsNothing : Obligations.ResetStateHoldsNothing :=
  ⟨rfl, rfl, rfl, rfl, rfl, rfl, rfl, rfl, rfl⟩

end Sys2Proof.Machine
end

section
/-! SUPPORT. The words the spec writes out (spec/30_encoding.md section 7, spec/95_test_vectors.md section 2.7), read through
the encoder and the rows of the decoder. -/

namespace Sys2Proof

/-- The word the encoder writes for a command decodes to that command: `decodeOfEncode` at the default parameters. -/
theorem decode_default_of_encode_eq {w : Nat} {i : Instr} (hi : i.wellFormed .default = true) (hw : encode i = w) :
    decode .default w = .command i :=
  hw ▸ decodeOfEncode .default i (by decide) hi

/-- Settles O10: nine of the legal words are their commands' words, and the tenth has the outcome code 0b11, which the encoder
never writes; of the two illegal ones the first has a reserved opcode and the second has bit 6 set. -/
theorem specExampleWordsDecode : Obligations.SpecExampleWordsDecode := by
  have hcode3 : decode .default 0x0000000432 = .command (.bpu 0x4 .x) :=
    decode_predictWord (a := 0x4) (sub := 0b11) .bpu (by decide) (by decide)
  have hopcode : decode .default 0x0000000007 = .illegal .reservedOpcode :=
    decode_reservedOpcode (by decide) (by decide) (by decide)
  have hsub : decode .default 0x0000000042 = .illegal .reservedBit := decode_reservedSub (by decide) (by decide)
  refine ⟨?_, ?_, ?_, ?_, ?_, hcode3, ?_, ?_, ?_, ?_, hopcode, hsub⟩
  all_goals exact decode_default_of_encode_eq (by decide) (by decide)

end Sys2Proof
end
